-- ==== Sys2Proof/Word.lean ====
section
/-! DEFINITION. The two word types of the machine (spec/00_scope.md R7, R8, R9): a byte of 8 bits and an
address of 16 bits, both unsigned, bit 0 the least significant. Everything built from them (taking a word
apart, sign extension, shifts, flags) is in Decode.lean and in Machine/. -/

namespace Sys2Proof

/-- A byte: `u8`, 0..255 (R9). The registers A, X, Y, SP and P, and every cell of memory, hold one. -/
abbrev Byte := BitVec 8

/-- A 16-bit word: `u16`, 0..65535 (R9). The program counter and every memory address are one (R7, R25). -/
abbrev Addr := BitVec 16

end Sys2Proof
end

