-- ==== Sys2Proof/Config.lean ====
section
/-! DEFINITION. What an implementation fixes: the two OPEN parameters of the spec (00_scope.md R7,
92_eei_decisions.md D7 and D8) and the constant vocabulary of the opcode table (20_memory.md R60,
30_encoding.md R84, R85): addressing modes, assembler modes, mnemonics and the OpCode record.

The spec makes the two parameters "arguments of the model". `exec` and `step` have fixed types, so the machine
carries them as the field `cfg` of State, which nothing writes (notes/assumptions/1.md); every statement that
does not fix them holds for each of their values. -/

namespace Sys2Proof

/-- `STACK_ORDER` (R7, R204, D8): whether a push moves SP before it writes (the source) or after (the NMOS chip). -/
inductive StackOrder
  | decThenWrite
  | writeThenDec
  deriving DecidableEq, Repr

/-- The OPEN parameters of R7 with their defaults. -/
structure Params where
  /-- `PC_COMPARE_ADVANCE` (R106, R107, D7): `true` selects the source's literal comparison of PC with `pcb`. -/
  pcCompareAdvance : Bool := false
  /-- `STACK_ORDER` (R200, R201, R204, D8). -/
  stackOrder : StackOrder := .decThenWrite
  deriving DecidableEq, Repr

/-- The ten values of the source's AddressingMode (R60, 90_conflicts.md C1). -/
inductive AddressingMode
  | immediate
  | zeroPage
  | zeroPageX
  | zeroPageY
  | absolute
  | absoluteX
  | absoluteY
  | indirectX
  | indirectY
  | noAddressing
  deriving DecidableEq, Repr

/-- The thirteen assembler modes of R84 and R88. The last four carry no AddressingMode of their own (R85). -/
inductive AsmMode
  | immediate
  | zeroPage
  | zeroPageX
  | zeroPageY
  | absolute
  | absoluteX
  | absoluteY
  | indirectX
  | indirectY
  | accumulator
  | implied
  | relative
  | indirect
  deriving DecidableEq, Repr

/-- The 56 mnemonics of the opcode table (R84). -/
inductive Mnemonic
  | adc | and | asl | bcc | bcs | beq | bit | bmi | bne | bpl | brk | bvc | bvs | clc
  | cld | cli | clv | cmp | cpx | cpy | dec | dex | dey | eor | inc | inx | iny | jmp
  | jsr | lda | ldx | ldy | lsr | nop | ora | pha | php | pla | plp | rol | ror | rti
  | rts | sbc | sec | sed | sei | sta | stx | sty | tax | tay | tsx | txa | txs | tya
  deriving DecidableEq, Repr

/-- The OpCode record: "{opcode byte, mnemonic, AddressingMode, byte length including opcode, base cycle
count}" (00_scope.md glossary, R101), with the assembler mode of R84's table beside it. The cycle count is
carried in the record only: no rule reads it (R110, R305). -/
structure OpRecord where
  opcode   : Byte
  mnemonic : Mnemonic
  asm      : AsmMode
  mode     : AddressingMode
  length   : Nat
  cycles   : Nat
  deriving DecidableEq, Repr

end Sys2Proof
end

