-- ==== Sys2Proof/Syntax.lean ====
section
/-! DEFINITION. The instructions: one constructor for each of the 151 rows of spec/opcode_table.json
(30_encoding.md R84), in the table's order. A constructor's name is the row's mnemonic, followed by the
assembler mode where the mnemonic has more than one: Imm `#i`, Zp `z`, ZpX `z,X`, ZpY `z,Y`, Abs `w`, AbsX `w,X`,
AbsY `w,Y`, IndX `(z,X)`, IndY `(z),Y`, Acc `A`, Ind `(w)`. Its argument is the operand field of R82: an
immediate byte `i`, a zero-page address `z`, a branch offset `o` or the absolute address `w` = `h:l`. -/

namespace Sys2Proof

/-- An instruction with its operand field (R80, R82, R84). -/
inductive Instr
  | brk
  | oraIndX (z : Byte)
  | oraZp (z : Byte)
  | aslZp (z : Byte)
  | php
  | oraImm (i : Byte)
  | aslAcc
  | oraAbs (w : Addr)
  | aslAbs (w : Addr)
  | bpl (o : Byte)
  | oraIndY (z : Byte)
  | oraZpX (z : Byte)
  | aslZpX (z : Byte)
  | clc
  | oraAbsY (w : Addr)
  | oraAbsX (w : Addr)
  | aslAbsX (w : Addr)
  | jsr (w : Addr)
  | andIndX (z : Byte)
  | bitZp (z : Byte)
  | andZp (z : Byte)
  | rolZp (z : Byte)
  | plp
  | andImm (i : Byte)
  | rolAcc
  | bitAbs (w : Addr)
  | andAbs (w : Addr)
  | rolAbs (w : Addr)
  | bmi (o : Byte)
  | andIndY (z : Byte)
  | andZpX (z : Byte)
  | rolZpX (z : Byte)
  | sec
  | andAbsY (w : Addr)
  | andAbsX (w : Addr)
  | rolAbsX (w : Addr)
  | rti
  | eorIndX (z : Byte)
  | eorZp (z : Byte)
  | lsrZp (z : Byte)
  | pha
  | eorImm (i : Byte)
  | lsrAcc
  | jmpAbs (w : Addr)
  | eorAbs (w : Addr)
  | lsrAbs (w : Addr)
  | bvc (o : Byte)
  | eorIndY (z : Byte)
  | eorZpX (z : Byte)
  | lsrZpX (z : Byte)
  | cli
  | eorAbsY (w : Addr)
  | eorAbsX (w : Addr)
  | lsrAbsX (w : Addr)
  | rts
  | adcIndX (z : Byte)
  | adcZp (z : Byte)
  | rorZp (z : Byte)
  | pla
  | adcImm (i : Byte)
  | rorAcc
  | jmpInd (w : Addr)
  | adcAbs (w : Addr)
  | rorAbs (w : Addr)
  | bvs (o : Byte)
  | adcIndY (z : Byte)
  | adcZpX (z : Byte)
  | rorZpX (z : Byte)
  | sei
  | adcAbsY (w : Addr)
  | adcAbsX (w : Addr)
  | rorAbsX (w : Addr)
  | staIndX (z : Byte)
  | styZp (z : Byte)
  | staZp (z : Byte)
  | stxZp (z : Byte)
  | dey
  | txa
  | styAbs (w : Addr)
  | staAbs (w : Addr)
  | stxAbs (w : Addr)
  | bcc (o : Byte)
  | staIndY (z : Byte)
  | styZpX (z : Byte)
  | staZpX (z : Byte)
  | stxZpY (z : Byte)
  | tya
  | staAbsY (w : Addr)
  | txs
  | staAbsX (w : Addr)
  | ldyImm (i : Byte)
  | ldaIndX (z : Byte)
  | ldxImm (i : Byte)
  | ldyZp (z : Byte)
  | ldaZp (z : Byte)
  | ldxZp (z : Byte)
  | tay
  | ldaImm (i : Byte)
  | tax
  | ldyAbs (w : Addr)
  | ldaAbs (w : Addr)
  | ldxAbs (w : Addr)
  | bcs (o : Byte)
  | ldaIndY (z : Byte)
  | ldyZpX (z : Byte)
  | ldaZpX (z : Byte)
  | ldxZpY (z : Byte)
  | clv
  | ldaAbsY (w : Addr)
  | tsx
  | ldyAbsX (w : Addr)
  | ldaAbsX (w : Addr)
  | ldxAbsY (w : Addr)
  | cpyImm (i : Byte)
  | cmpIndX (z : Byte)
  | cpyZp (z : Byte)
  | cmpZp (z : Byte)
  | decZp (z : Byte)
  | iny
  | cmpImm (i : Byte)
  | dex
  | cpyAbs (w : Addr)
  | cmpAbs (w : Addr)
  | decAbs (w : Addr)
  | bne (o : Byte)
  | cmpIndY (z : Byte)
  | cmpZpX (z : Byte)
  | decZpX (z : Byte)
  | cld
  | cmpAbsY (w : Addr)
  | cmpAbsX (w : Addr)
  | decAbsX (w : Addr)
  | cpxImm (i : Byte)
  | sbcIndX (z : Byte)
  | cpxZp (z : Byte)
  | sbcZp (z : Byte)
  | incZp (z : Byte)
  | inx
  | sbcImm (i : Byte)
  | nop
  | cpxAbs (w : Addr)
  | sbcAbs (w : Addr)
  | incAbs (w : Addr)
  | beq (o : Byte)
  | sbcIndY (z : Byte)
  | sbcZpX (z : Byte)
  | incZpX (z : Byte)
  | sed
  | sbcAbsY (w : Addr)
  | sbcAbsX (w : Addr)
  | incAbsX (w : Addr)
  deriving DecidableEq, Repr

end Sys2Proof
end

