-- ==== Sys2Proof/Decode.lean ====
section
/-! DEFINITION. The decoder (6502_decoder: 30_encoding.md, 40_fetch_decode.md R101, R102): total on any
bytes, rejecting by name; after it the encoder and the opcode table as the list of records R84 prints.
Decoder, encoder and record table are three readings of R84, written out separately; Laws/PerInstr.lean and
Tests/Slice0.lean hold them against each other. -/

namespace Sys2Proof

/-! ### Words and bytes -/

/-- `hi:lo`, the 16-bit word of two bytes (R9). -/
def word (hi lo : Byte) : Addr := hi ++ lo

/-- `w mod 256` (R9, R51). -/
def loByte (w : Addr) : Byte := w.extractLsb' 0 8

/-- `w / 256` (R9, R51). -/
def hiByte (w : Addr) : Byte := w.extractLsb' 8 8

/-- `zext_16` (R9). -/
def zext16 (v : Byte) : Addr := v.setWidth 16

/-- `sext_16`, the two's-complement sign extension (R9). -/
def sext16 (v : Byte) : Addr := v.signExtend 16

/-! ### The decoder -/

/-- Why bytes are no instruction. Nothing else is refused: every operand value is legal (R87). -/
inductive DecodeError
  /-- No byte at all. -/
  | noBytes
  /-- The opcode byte is one of the 105 of R86. -/
  | unimplementedOpcode (op : Byte)
  /-- The list ends inside the operand bytes (never at a fetch, which reads three bytes). -/
  | truncated (op : Byte)
  deriving DecidableEq, Repr

/-- The format of an opcode (R80): no operand byte, one, or two holding an absolute address low byte first. -/
inductive Shape
  | f1 (i : Instr)
  | f2 (make : Byte → Instr)
  | f3 (make : Addr → Instr)

/-- Row 0x of the opcode map of R84: the column is the low nibble. -/
def row0 (lo : Nat) : Option Shape :=
  match lo with
  | 0x0 => some (.f1 .brk)
  | 0x1 => some (.f2 .oraIndX)
  | 0x5 => some (.f2 .oraZp)
  | 0x6 => some (.f2 .aslZp)
  | 0x8 => some (.f1 .php)
  | 0x9 => some (.f2 .oraImm)
  | 0xA => some (.f1 .aslAcc)
  | 0xD => some (.f3 .oraAbs)
  | 0xE => some (.f3 .aslAbs)
  | _ => none

/-- Row 1x of the opcode map of R84: the column is the low nibble. -/
def row1 (lo : Nat) : Option Shape :=
  match lo with
  | 0x0 => some (.f2 .bpl)
  | 0x1 => some (.f2 .oraIndY)
  | 0x5 => some (.f2 .oraZpX)
  | 0x6 => some (.f2 .aslZpX)
  | 0x8 => some (.f1 .clc)
  | 0x9 => some (.f3 .oraAbsY)
  | 0xD => some (.f3 .oraAbsX)
  | 0xE => some (.f3 .aslAbsX)
  | _ => none

/-- Row 2x of the opcode map of R84: the column is the low nibble. -/
def row2 (lo : Nat) : Option Shape :=
  match lo with
  | 0x0 => some (.f3 .jsr)
  | 0x1 => some (.f2 .andIndX)
  | 0x4 => some (.f2 .bitZp)
  | 0x5 => some (.f2 .andZp)
  | 0x6 => some (.f2 .rolZp)
  | 0x8 => some (.f1 .plp)
  | 0x9 => some (.f2 .andImm)
  | 0xA => some (.f1 .rolAcc)
  | 0xC => some (.f3 .bitAbs)
  | 0xD => some (.f3 .andAbs)
  | 0xE => some (.f3 .rolAbs)
  | _ => none

/-- Row 3x of the opcode map of R84: the column is the low nibble. -/
def row3 (lo : Nat) : Option Shape :=
  match lo with
  | 0x0 => some (.f2 .bmi)
  | 0x1 => some (.f2 .andIndY)
  | 0x5 => some (.f2 .andZpX)
  | 0x6 => some (.f2 .rolZpX)
  | 0x8 => some (.f1 .sec)
  | 0x9 => some (.f3 .andAbsY)
  | 0xD => some (.f3 .andAbsX)
  | 0xE => some (.f3 .rolAbsX)
  | _ => none

/-- Row 4x of the opcode map of R84: the column is the low nibble. -/
def row4 (lo : Nat) : Option Shape :=
  match lo with
  | 0x0 => some (.f1 .rti)
  | 0x1 => some (.f2 .eorIndX)
  | 0x5 => some (.f2 .eorZp)
  | 0x6 => some (.f2 .lsrZp)
  | 0x8 => some (.f1 .pha)
  | 0x9 => some (.f2 .eorImm)
  | 0xA => some (.f1 .lsrAcc)
  | 0xC => some (.f3 .jmpAbs)
  | 0xD => some (.f3 .eorAbs)
  | 0xE => some (.f3 .lsrAbs)
  | _ => none

/-- Row 5x of the opcode map of R84: the column is the low nibble. -/
def row5 (lo : Nat) : Option Shape :=
  match lo with
  | 0x0 => some (.f2 .bvc)
  | 0x1 => some (.f2 .eorIndY)
  | 0x5 => some (.f2 .eorZpX)
  | 0x6 => some (.f2 .lsrZpX)
  | 0x8 => some (.f1 .cli)
  | 0x9 => some (.f3 .eorAbsY)
  | 0xD => some (.f3 .eorAbsX)
  | 0xE => some (.f3 .lsrAbsX)
  | _ => none

/-- Row 6x of the opcode map of R84: the column is the low nibble. -/
def row6 (lo : Nat) : Option Shape :=
  match lo with
  | 0x0 => some (.f1 .rts)
  | 0x1 => some (.f2 .adcIndX)
  | 0x5 => some (.f2 .adcZp)
  | 0x6 => some (.f2 .rorZp)
  | 0x8 => some (.f1 .pla)
  | 0x9 => some (.f2 .adcImm)
  | 0xA => some (.f1 .rorAcc)
  | 0xC => some (.f3 .jmpInd)
  | 0xD => some (.f3 .adcAbs)
  | 0xE => some (.f3 .rorAbs)
  | _ => none

/-- Row 7x of the opcode map of R84: the column is the low nibble. -/
def row7 (lo : Nat) : Option Shape :=
  match lo with
  | 0x0 => some (.f2 .bvs)
  | 0x1 => some (.f2 .adcIndY)
  | 0x5 => some (.f2 .adcZpX)
  | 0x6 => some (.f2 .rorZpX)
  | 0x8 => some (.f1 .sei)
  | 0x9 => some (.f3 .adcAbsY)
  | 0xD => some (.f3 .adcAbsX)
  | 0xE => some (.f3 .rorAbsX)
  | _ => none

/-- Row 8x of the opcode map of R84: the column is the low nibble. -/
def row8 (lo : Nat) : Option Shape :=
  match lo with
  | 0x1 => some (.f2 .staIndX)
  | 0x4 => some (.f2 .styZp)
  | 0x5 => some (.f2 .staZp)
  | 0x6 => some (.f2 .stxZp)
  | 0x8 => some (.f1 .dey)
  | 0xA => some (.f1 .txa)
  | 0xC => some (.f3 .styAbs)
  | 0xD => some (.f3 .staAbs)
  | 0xE => some (.f3 .stxAbs)
  | _ => none

/-- Row 9x of the opcode map of R84: the column is the low nibble. -/
def row9 (lo : Nat) : Option Shape :=
  match lo with
  | 0x0 => some (.f2 .bcc)
  | 0x1 => some (.f2 .staIndY)
  | 0x4 => some (.f2 .styZpX)
  | 0x5 => some (.f2 .staZpX)
  | 0x6 => some (.f2 .stxZpY)
  | 0x8 => some (.f1 .tya)
  | 0x9 => some (.f3 .staAbsY)
  | 0xA => some (.f1 .txs)
  | 0xD => some (.f3 .staAbsX)
  | _ => none

/-- Row Ax of the opcode map of R84: the column is the low nibble. -/
def rowA (lo : Nat) : Option Shape :=
  match lo with
  | 0x0 => some (.f2 .ldyImm)
  | 0x1 => some (.f2 .ldaIndX)
  | 0x2 => some (.f2 .ldxImm)
  | 0x4 => some (.f2 .ldyZp)
  | 0x5 => some (.f2 .ldaZp)
  | 0x6 => some (.f2 .ldxZp)
  | 0x8 => some (.f1 .tay)
  | 0x9 => some (.f2 .ldaImm)
  | 0xA => some (.f1 .tax)
  | 0xC => some (.f3 .ldyAbs)
  | 0xD => some (.f3 .ldaAbs)
  | 0xE => some (.f3 .ldxAbs)
  | _ => none

/-- Row Bx of the opcode map of R84: the column is the low nibble. -/
def rowB (lo : Nat) : Option Shape :=
  match lo with
  | 0x0 => some (.f2 .bcs)
  | 0x1 => some (.f2 .ldaIndY)
  | 0x4 => some (.f2 .ldyZpX)
  | 0x5 => some (.f2 .ldaZpX)
  | 0x6 => some (.f2 .ldxZpY)
  | 0x8 => some (.f1 .clv)
  | 0x9 => some (.f3 .ldaAbsY)
  | 0xA => some (.f1 .tsx)
  | 0xC => some (.f3 .ldyAbsX)
  | 0xD => some (.f3 .ldaAbsX)
  | 0xE => some (.f3 .ldxAbsY)
  | _ => none

/-- Row Cx of the opcode map of R84: the column is the low nibble. -/
def rowC (lo : Nat) : Option Shape :=
  match lo with
  | 0x0 => some (.f2 .cpyImm)
  | 0x1 => some (.f2 .cmpIndX)
  | 0x4 => some (.f2 .cpyZp)
  | 0x5 => some (.f2 .cmpZp)
  | 0x6 => some (.f2 .decZp)
  | 0x8 => some (.f1 .iny)
  | 0x9 => some (.f2 .cmpImm)
  | 0xA => some (.f1 .dex)
  | 0xC => some (.f3 .cpyAbs)
  | 0xD => some (.f3 .cmpAbs)
  | 0xE => some (.f3 .decAbs)
  | _ => none

/-- Row Dx of the opcode map of R84: the column is the low nibble. -/
def rowD (lo : Nat) : Option Shape :=
  match lo with
  | 0x0 => some (.f2 .bne)
  | 0x1 => some (.f2 .cmpIndY)
  | 0x5 => some (.f2 .cmpZpX)
  | 0x6 => some (.f2 .decZpX)
  | 0x8 => some (.f1 .cld)
  | 0x9 => some (.f3 .cmpAbsY)
  | 0xD => some (.f3 .cmpAbsX)
  | 0xE => some (.f3 .decAbsX)
  | _ => none

/-- Row Ex of the opcode map of R84: the column is the low nibble. -/
def rowE (lo : Nat) : Option Shape :=
  match lo with
  | 0x0 => some (.f2 .cpxImm)
  | 0x1 => some (.f2 .sbcIndX)
  | 0x4 => some (.f2 .cpxZp)
  | 0x5 => some (.f2 .sbcZp)
  | 0x6 => some (.f2 .incZp)
  | 0x8 => some (.f1 .inx)
  | 0x9 => some (.f2 .sbcImm)
  | 0xA => some (.f1 .nop)
  | 0xC => some (.f3 .cpxAbs)
  | 0xD => some (.f3 .sbcAbs)
  | 0xE => some (.f3 .incAbs)
  | _ => none

/-- Row Fx of the opcode map of R84: the column is the low nibble. -/
def rowF (lo : Nat) : Option Shape :=
  match lo with
  | 0x0 => some (.f2 .beq)
  | 0x1 => some (.f2 .sbcIndY)
  | 0x5 => some (.f2 .sbcZpX)
  | 0x6 => some (.f2 .incZpX)
  | 0x8 => some (.f1 .sed)
  | 0x9 => some (.f3 .sbcAbsY)
  | 0xD => some (.f3 .sbcAbsX)
  | 0xE => some (.f3 .incAbsX)
  | _ => none

/-- The opcode map of R84, row by row; `none` on the 105 bytes of R86. -/
def shapeOf (op : Byte) : Option Shape :=
  match op.toNat / 16 with
  | 0x0 => row0 (op.toNat % 16)
  | 0x1 => row1 (op.toNat % 16)
  | 0x2 => row2 (op.toNat % 16)
  | 0x3 => row3 (op.toNat % 16)
  | 0x4 => row4 (op.toNat % 16)
  | 0x5 => row5 (op.toNat % 16)
  | 0x6 => row6 (op.toNat % 16)
  | 0x7 => row7 (op.toNat % 16)
  | 0x8 => row8 (op.toNat % 16)
  | 0x9 => row9 (op.toNat % 16)
  | 0xA => rowA (op.toNat % 16)
  | 0xB => rowB (op.toNat % 16)
  | 0xC => rowC (op.toNat % 16)
  | 0xD => rowD (op.toNat % 16)
  | 0xE => rowE (op.toNat % 16)
  | 0xF => rowF (op.toNat % 16)
  | _ => none

/-- The instruction at the head of a list of bytes and the bytes after it (R80, R82, R101). The length
follows from the first byte alone (R83); an absent opcode is rejected before its operands are looked at (R278). -/
def decode (bytes : List Byte) : Except DecodeError (Instr × List Byte) :=
  match bytes with
  | [] => .error .noBytes
  | op :: rest =>
    match shapeOf op with
    | none => .error (.unimplementedOpcode op)
    | some (.f1 i) => .ok (i, rest)
    | some (.f2 make) =>
      match rest with
      | b :: after => .ok (make b, after)
      | [] => .error (.truncated op)
    | some (.f3 make) =>
      match rest with
      | l :: h :: after => .ok (make (word h l), after)
      | _ => .error (.truncated op)

/-- The three bytes, lowest address first, of a number whose bit 0 is the first byte's bit 0; bits from
`nbits` up are 0. Three bytes is the longest instruction (R80). -/
def wordBytes (nbits w : Nat) : List Byte :=
  let v := w % 2 ^ nbits
  [BitVec.ofNat 8 v, BitVec.ofNat 8 (v / 256), BitVec.ofNat 8 (v / 65536)]

/-- What the decoder reads from the instruction whose bits are `w`, numbered as spec/opcode_table.json
numbers them: the first byte is bits 7..0, the second bits 15..8, the third bits 23..16. -/
def decodeTableWord (nbits w : Nat) : Option Instr :=
  match decode (wordBytes nbits w) with
  | .ok (i, _) => some i
  | .error _ => none

/-! ### Operand forms -/

/-- An operand form with its field (R82, R88). -/
inductive Operand
  | immediate (i : Byte)
  | zeroPage (z : Byte)
  | zeroPageX (z : Byte)
  | zeroPageY (z : Byte)
  | absolute (w : Addr)
  | absoluteX (w : Addr)
  | absoluteY (w : Addr)
  | indirectX (z : Byte)
  | indirectY (z : Byte)
  | accumulator
  | implied
  | relative (o : Byte)
  | indirect (w : Addr)
  deriving DecidableEq, Repr

/-- The assembler mode of an operand form (R88). -/
def Operand.asm : Operand → AsmMode
  | .immediate _ => .immediate
  | .zeroPage _ => .zeroPage
  | .zeroPageX _ => .zeroPageX
  | .zeroPageY _ => .zeroPageY
  | .absolute _ => .absolute
  | .absoluteX _ => .absoluteX
  | .absoluteY _ => .absoluteY
  | .indirectX _ => .indirectX
  | .indirectY _ => .indirectY
  | .accumulator => .accumulator
  | .implied => .implied
  | .relative _ => .relative
  | .indirect _ => .indirect

/-- The operand bytes in memory order (R80, R53: low byte first). -/
def Operand.bytes : Operand → List Byte
  | .immediate b | .zeroPage b | .zeroPageX b | .zeroPageY b | .indirectX b | .indirectY b | .relative b => [b]
  | .absolute w | .absoluteX w | .absoluteY w | .indirect w => [loByte w, hiByte w]
  | .accumulator | .implied => []

/-- The AddressingMode the record holds for an assembler mode: the sentinel for the four forms the source's
enumeration does not name (R85, D3). -/
def AsmMode.mode : AsmMode → AddressingMode
  | .immediate => .immediate
  | .zeroPage => .zeroPage
  | .zeroPageX => .zeroPageX
  | .zeroPageY => .zeroPageY
  | .absolute => .absolute
  | .absoluteX => .absoluteX
  | .absoluteY => .absoluteY
  | .indirectX => .indirectX
  | .indirectY => .indirectY
  | .accumulator | .implied | .relative | .indirect => .noAddressing

/-- The instruction length of an assembler mode: formats F1, F2, F3 (R81). -/
def AsmMode.length : AsmMode → Nat
  | .accumulator | .implied => 1
  | .immediate | .zeroPage | .zeroPageX | .zeroPageY | .indirectX | .indirectY | .relative => 2
  | .absolute | .absoluteX | .absoluteY | .indirect => 3

/-! ### The encoder -/

/-- Opcode byte, mnemonic and operand form of an instruction (R84). -/
structure Parts where
  opcode   : Byte
  mnemonic : Mnemonic
  operand  : Operand
  deriving DecidableEq, Repr

/-- R84's row for each instruction, with its operand field in place. -/
def Instr.parts : Instr → Parts
  | .brk => ⟨0x00, .brk, .implied⟩
  | .oraIndX z => ⟨0x01, .ora, .indirectX z⟩
  | .oraZp z => ⟨0x05, .ora, .zeroPage z⟩
  | .aslZp z => ⟨0x06, .asl, .zeroPage z⟩
  | .php => ⟨0x08, .php, .implied⟩
  | .oraImm i => ⟨0x09, .ora, .immediate i⟩
  | .aslAcc => ⟨0x0A, .asl, .accumulator⟩
  | .oraAbs w => ⟨0x0D, .ora, .absolute w⟩
  | .aslAbs w => ⟨0x0E, .asl, .absolute w⟩
  | .bpl o => ⟨0x10, .bpl, .relative o⟩
  | .oraIndY z => ⟨0x11, .ora, .indirectY z⟩
  | .oraZpX z => ⟨0x15, .ora, .zeroPageX z⟩
  | .aslZpX z => ⟨0x16, .asl, .zeroPageX z⟩
  | .clc => ⟨0x18, .clc, .implied⟩
  | .oraAbsY w => ⟨0x19, .ora, .absoluteY w⟩
  | .oraAbsX w => ⟨0x1D, .ora, .absoluteX w⟩
  | .aslAbsX w => ⟨0x1E, .asl, .absoluteX w⟩
  | .jsr w => ⟨0x20, .jsr, .absolute w⟩
  | .andIndX z => ⟨0x21, .and, .indirectX z⟩
  | .bitZp z => ⟨0x24, .bit, .zeroPage z⟩
  | .andZp z => ⟨0x25, .and, .zeroPage z⟩
  | .rolZp z => ⟨0x26, .rol, .zeroPage z⟩
  | .plp => ⟨0x28, .plp, .implied⟩
  | .andImm i => ⟨0x29, .and, .immediate i⟩
  | .rolAcc => ⟨0x2A, .rol, .accumulator⟩
  | .bitAbs w => ⟨0x2C, .bit, .absolute w⟩
  | .andAbs w => ⟨0x2D, .and, .absolute w⟩
  | .rolAbs w => ⟨0x2E, .rol, .absolute w⟩
  | .bmi o => ⟨0x30, .bmi, .relative o⟩
  | .andIndY z => ⟨0x31, .and, .indirectY z⟩
  | .andZpX z => ⟨0x35, .and, .zeroPageX z⟩
  | .rolZpX z => ⟨0x36, .rol, .zeroPageX z⟩
  | .sec => ⟨0x38, .sec, .implied⟩
  | .andAbsY w => ⟨0x39, .and, .absoluteY w⟩
  | .andAbsX w => ⟨0x3D, .and, .absoluteX w⟩
  | .rolAbsX w => ⟨0x3E, .rol, .absoluteX w⟩
  | .rti => ⟨0x40, .rti, .implied⟩
  | .eorIndX z => ⟨0x41, .eor, .indirectX z⟩
  | .eorZp z => ⟨0x45, .eor, .zeroPage z⟩
  | .lsrZp z => ⟨0x46, .lsr, .zeroPage z⟩
  | .pha => ⟨0x48, .pha, .implied⟩
  | .eorImm i => ⟨0x49, .eor, .immediate i⟩
  | .lsrAcc => ⟨0x4A, .lsr, .accumulator⟩
  | .jmpAbs w => ⟨0x4C, .jmp, .absolute w⟩
  | .eorAbs w => ⟨0x4D, .eor, .absolute w⟩
  | .lsrAbs w => ⟨0x4E, .lsr, .absolute w⟩
  | .bvc o => ⟨0x50, .bvc, .relative o⟩
  | .eorIndY z => ⟨0x51, .eor, .indirectY z⟩
  | .eorZpX z => ⟨0x55, .eor, .zeroPageX z⟩
  | .lsrZpX z => ⟨0x56, .lsr, .zeroPageX z⟩
  | .cli => ⟨0x58, .cli, .implied⟩
  | .eorAbsY w => ⟨0x59, .eor, .absoluteY w⟩
  | .eorAbsX w => ⟨0x5D, .eor, .absoluteX w⟩
  | .lsrAbsX w => ⟨0x5E, .lsr, .absoluteX w⟩
  | .rts => ⟨0x60, .rts, .implied⟩
  | .adcIndX z => ⟨0x61, .adc, .indirectX z⟩
  | .adcZp z => ⟨0x65, .adc, .zeroPage z⟩
  | .rorZp z => ⟨0x66, .ror, .zeroPage z⟩
  | .pla => ⟨0x68, .pla, .implied⟩
  | .adcImm i => ⟨0x69, .adc, .immediate i⟩
  | .rorAcc => ⟨0x6A, .ror, .accumulator⟩
  | .jmpInd w => ⟨0x6C, .jmp, .indirect w⟩
  | .adcAbs w => ⟨0x6D, .adc, .absolute w⟩
  | .rorAbs w => ⟨0x6E, .ror, .absolute w⟩
  | .bvs o => ⟨0x70, .bvs, .relative o⟩
  | .adcIndY z => ⟨0x71, .adc, .indirectY z⟩
  | .adcZpX z => ⟨0x75, .adc, .zeroPageX z⟩
  | .rorZpX z => ⟨0x76, .ror, .zeroPageX z⟩
  | .sei => ⟨0x78, .sei, .implied⟩
  | .adcAbsY w => ⟨0x79, .adc, .absoluteY w⟩
  | .adcAbsX w => ⟨0x7D, .adc, .absoluteX w⟩
  | .rorAbsX w => ⟨0x7E, .ror, .absoluteX w⟩
  | .staIndX z => ⟨0x81, .sta, .indirectX z⟩
  | .styZp z => ⟨0x84, .sty, .zeroPage z⟩
  | .staZp z => ⟨0x85, .sta, .zeroPage z⟩
  | .stxZp z => ⟨0x86, .stx, .zeroPage z⟩
  | .dey => ⟨0x88, .dey, .implied⟩
  | .txa => ⟨0x8A, .txa, .implied⟩
  | .styAbs w => ⟨0x8C, .sty, .absolute w⟩
  | .staAbs w => ⟨0x8D, .sta, .absolute w⟩
  | .stxAbs w => ⟨0x8E, .stx, .absolute w⟩
  | .bcc o => ⟨0x90, .bcc, .relative o⟩
  | .staIndY z => ⟨0x91, .sta, .indirectY z⟩
  | .styZpX z => ⟨0x94, .sty, .zeroPageX z⟩
  | .staZpX z => ⟨0x95, .sta, .zeroPageX z⟩
  | .stxZpY z => ⟨0x96, .stx, .zeroPageY z⟩
  | .tya => ⟨0x98, .tya, .implied⟩
  | .staAbsY w => ⟨0x99, .sta, .absoluteY w⟩
  | .txs => ⟨0x9A, .txs, .implied⟩
  | .staAbsX w => ⟨0x9D, .sta, .absoluteX w⟩
  | .ldyImm i => ⟨0xA0, .ldy, .immediate i⟩
  | .ldaIndX z => ⟨0xA1, .lda, .indirectX z⟩
  | .ldxImm i => ⟨0xA2, .ldx, .immediate i⟩
  | .ldyZp z => ⟨0xA4, .ldy, .zeroPage z⟩
  | .ldaZp z => ⟨0xA5, .lda, .zeroPage z⟩
  | .ldxZp z => ⟨0xA6, .ldx, .zeroPage z⟩
  | .tay => ⟨0xA8, .tay, .implied⟩
  | .ldaImm i => ⟨0xA9, .lda, .immediate i⟩
  | .tax => ⟨0xAA, .tax, .implied⟩
  | .ldyAbs w => ⟨0xAC, .ldy, .absolute w⟩
  | .ldaAbs w => ⟨0xAD, .lda, .absolute w⟩
  | .ldxAbs w => ⟨0xAE, .ldx, .absolute w⟩
  | .bcs o => ⟨0xB0, .bcs, .relative o⟩
  | .ldaIndY z => ⟨0xB1, .lda, .indirectY z⟩
  | .ldyZpX z => ⟨0xB4, .ldy, .zeroPageX z⟩
  | .ldaZpX z => ⟨0xB5, .lda, .zeroPageX z⟩
  | .ldxZpY z => ⟨0xB6, .ldx, .zeroPageY z⟩
  | .clv => ⟨0xB8, .clv, .implied⟩
  | .ldaAbsY w => ⟨0xB9, .lda, .absoluteY w⟩
  | .tsx => ⟨0xBA, .tsx, .implied⟩
  | .ldyAbsX w => ⟨0xBC, .ldy, .absoluteX w⟩
  | .ldaAbsX w => ⟨0xBD, .lda, .absoluteX w⟩
  | .ldxAbsY w => ⟨0xBE, .ldx, .absoluteY w⟩
  | .cpyImm i => ⟨0xC0, .cpy, .immediate i⟩
  | .cmpIndX z => ⟨0xC1, .cmp, .indirectX z⟩
  | .cpyZp z => ⟨0xC4, .cpy, .zeroPage z⟩
  | .cmpZp z => ⟨0xC5, .cmp, .zeroPage z⟩
  | .decZp z => ⟨0xC6, .dec, .zeroPage z⟩
  | .iny => ⟨0xC8, .iny, .implied⟩
  | .cmpImm i => ⟨0xC9, .cmp, .immediate i⟩
  | .dex => ⟨0xCA, .dex, .implied⟩
  | .cpyAbs w => ⟨0xCC, .cpy, .absolute w⟩
  | .cmpAbs w => ⟨0xCD, .cmp, .absolute w⟩
  | .decAbs w => ⟨0xCE, .dec, .absolute w⟩
  | .bne o => ⟨0xD0, .bne, .relative o⟩
  | .cmpIndY z => ⟨0xD1, .cmp, .indirectY z⟩
  | .cmpZpX z => ⟨0xD5, .cmp, .zeroPageX z⟩
  | .decZpX z => ⟨0xD6, .dec, .zeroPageX z⟩
  | .cld => ⟨0xD8, .cld, .implied⟩
  | .cmpAbsY w => ⟨0xD9, .cmp, .absoluteY w⟩
  | .cmpAbsX w => ⟨0xDD, .cmp, .absoluteX w⟩
  | .decAbsX w => ⟨0xDE, .dec, .absoluteX w⟩
  | .cpxImm i => ⟨0xE0, .cpx, .immediate i⟩
  | .sbcIndX z => ⟨0xE1, .sbc, .indirectX z⟩
  | .cpxZp z => ⟨0xE4, .cpx, .zeroPage z⟩
  | .sbcZp z => ⟨0xE5, .sbc, .zeroPage z⟩
  | .incZp z => ⟨0xE6, .inc, .zeroPage z⟩
  | .inx => ⟨0xE8, .inx, .implied⟩
  | .sbcImm i => ⟨0xE9, .sbc, .immediate i⟩
  | .nop => ⟨0xEA, .nop, .implied⟩
  | .cpxAbs w => ⟨0xEC, .cpx, .absolute w⟩
  | .sbcAbs w => ⟨0xED, .sbc, .absolute w⟩
  | .incAbs w => ⟨0xEE, .inc, .absolute w⟩
  | .beq o => ⟨0xF0, .beq, .relative o⟩
  | .sbcIndY z => ⟨0xF1, .sbc, .indirectY z⟩
  | .sbcZpX z => ⟨0xF5, .sbc, .zeroPageX z⟩
  | .incZpX z => ⟨0xF6, .inc, .zeroPageX z⟩
  | .sed => ⟨0xF8, .sed, .implied⟩
  | .sbcAbsY w => ⟨0xF9, .sbc, .absoluteY w⟩
  | .sbcAbsX w => ⟨0xFD, .sbc, .absoluteX w⟩
  | .incAbsX w => ⟨0xFE, .inc, .absoluteX w⟩

/-- The opcode byte (R84). -/
def Instr.opcode (i : Instr) : Byte := i.parts.opcode

/-- The mnemonic (R84). -/
def Instr.mnemonic (i : Instr) : Mnemonic := i.parts.mnemonic

/-- The operand form with its field (R82, R84). -/
def Instr.operand (i : Instr) : Operand := i.parts.operand

/-- The byte length including the opcode (R80, R81). -/
def Instr.length (i : Instr) : Nat := i.operand.asm.length

/-- The bytes of an instruction in memory order (R80, R84). -/
def encode (i : Instr) : List Byte := i.opcode :: i.operand.bytes

/-- The control-transfer instructions: JMP, JSR, RTS, RTI and the eight branches, and no others (R105, D18). -/
def Mnemonic.isControlTransfer : Mnemonic → Bool
  | .jmp | .jsr | .rts | .rti | .bcc | .bcs | .beq | .bne | .bmi | .bpl | .bvc | .bvs => true
  | .adc | .and | .asl | .bit | .brk | .clc | .cld | .cli | .clv | .cmp | .cpx | .cpy | .dec | .dex | .dey
  | .eor | .inc | .inx | .iny | .lda | .ldx | .ldy | .lsr | .nop | .ora | .pha | .php | .pla | .plp | .rol
  | .ror | .sbc | .sec | .sed | .sei | .sta | .stx | .sty | .tax | .tay | .tsx | .txa | .txs | .tya => false

/-- Whether the instruction is solely responsible for PC (R105). -/
def Instr.isControlTransfer (i : Instr) : Bool := i.mnemonic.isControlTransfer

/-! ### The opcode table as records (R84's full table, R38: a constant) -/

/-- Opcodes 0x00 to 0x0F of R84's full table. -/
def opTable0 : List OpRecord := [
  ⟨0x00, .brk, .implied, .noAddressing, 1, 7⟩,
  ⟨0x01, .ora, .indirectX, .indirectX, 2, 6⟩,
  ⟨0x05, .ora, .zeroPage, .zeroPage, 2, 3⟩,
  ⟨0x06, .asl, .zeroPage, .zeroPage, 2, 5⟩,
  ⟨0x08, .php, .implied, .noAddressing, 1, 3⟩,
  ⟨0x09, .ora, .immediate, .immediate, 2, 2⟩,
  ⟨0x0A, .asl, .accumulator, .noAddressing, 1, 2⟩,
  ⟨0x0D, .ora, .absolute, .absolute, 3, 4⟩,
  ⟨0x0E, .asl, .absolute, .absolute, 3, 6⟩]

/-- Opcodes 0x10 to 0x1F of R84's full table. -/
def opTable1 : List OpRecord := [
  ⟨0x10, .bpl, .relative, .noAddressing, 2, 2⟩,
  ⟨0x11, .ora, .indirectY, .indirectY, 2, 5⟩,
  ⟨0x15, .ora, .zeroPageX, .zeroPageX, 2, 4⟩,
  ⟨0x16, .asl, .zeroPageX, .zeroPageX, 2, 6⟩,
  ⟨0x18, .clc, .implied, .noAddressing, 1, 2⟩,
  ⟨0x19, .ora, .absoluteY, .absoluteY, 3, 4⟩,
  ⟨0x1D, .ora, .absoluteX, .absoluteX, 3, 4⟩,
  ⟨0x1E, .asl, .absoluteX, .absoluteX, 3, 7⟩]

/-- Opcodes 0x20 to 0x2F of R84's full table. -/
def opTable2 : List OpRecord := [
  ⟨0x20, .jsr, .absolute, .absolute, 3, 6⟩,
  ⟨0x21, .and, .indirectX, .indirectX, 2, 6⟩,
  ⟨0x24, .bit, .zeroPage, .zeroPage, 2, 3⟩,
  ⟨0x25, .and, .zeroPage, .zeroPage, 2, 3⟩,
  ⟨0x26, .rol, .zeroPage, .zeroPage, 2, 5⟩,
  ⟨0x28, .plp, .implied, .noAddressing, 1, 4⟩,
  ⟨0x29, .and, .immediate, .immediate, 2, 2⟩,
  ⟨0x2A, .rol, .accumulator, .noAddressing, 1, 2⟩,
  ⟨0x2C, .bit, .absolute, .absolute, 3, 4⟩,
  ⟨0x2D, .and, .absolute, .absolute, 3, 4⟩,
  ⟨0x2E, .rol, .absolute, .absolute, 3, 6⟩]

/-- Opcodes 0x30 to 0x3F of R84's full table. -/
def opTable3 : List OpRecord := [
  ⟨0x30, .bmi, .relative, .noAddressing, 2, 2⟩,
  ⟨0x31, .and, .indirectY, .indirectY, 2, 5⟩,
  ⟨0x35, .and, .zeroPageX, .zeroPageX, 2, 4⟩,
  ⟨0x36, .rol, .zeroPageX, .zeroPageX, 2, 6⟩,
  ⟨0x38, .sec, .implied, .noAddressing, 1, 2⟩,
  ⟨0x39, .and, .absoluteY, .absoluteY, 3, 4⟩,
  ⟨0x3D, .and, .absoluteX, .absoluteX, 3, 4⟩,
  ⟨0x3E, .rol, .absoluteX, .absoluteX, 3, 7⟩]

/-- Opcodes 0x40 to 0x4F of R84's full table. -/
def opTable4 : List OpRecord := [
  ⟨0x40, .rti, .implied, .noAddressing, 1, 6⟩,
  ⟨0x41, .eor, .indirectX, .indirectX, 2, 6⟩,
  ⟨0x45, .eor, .zeroPage, .zeroPage, 2, 3⟩,
  ⟨0x46, .lsr, .zeroPage, .zeroPage, 2, 5⟩,
  ⟨0x48, .pha, .implied, .noAddressing, 1, 3⟩,
  ⟨0x49, .eor, .immediate, .immediate, 2, 2⟩,
  ⟨0x4A, .lsr, .accumulator, .noAddressing, 1, 2⟩,
  ⟨0x4C, .jmp, .absolute, .absolute, 3, 3⟩,
  ⟨0x4D, .eor, .absolute, .absolute, 3, 4⟩,
  ⟨0x4E, .lsr, .absolute, .absolute, 3, 6⟩]

/-- Opcodes 0x50 to 0x5F of R84's full table. -/
def opTable5 : List OpRecord := [
  ⟨0x50, .bvc, .relative, .noAddressing, 2, 2⟩,
  ⟨0x51, .eor, .indirectY, .indirectY, 2, 5⟩,
  ⟨0x55, .eor, .zeroPageX, .zeroPageX, 2, 4⟩,
  ⟨0x56, .lsr, .zeroPageX, .zeroPageX, 2, 6⟩,
  ⟨0x58, .cli, .implied, .noAddressing, 1, 2⟩,
  ⟨0x59, .eor, .absoluteY, .absoluteY, 3, 4⟩,
  ⟨0x5D, .eor, .absoluteX, .absoluteX, 3, 4⟩,
  ⟨0x5E, .lsr, .absoluteX, .absoluteX, 3, 7⟩]

/-- Opcodes 0x60 to 0x6F of R84's full table. -/
def opTable6 : List OpRecord := [
  ⟨0x60, .rts, .implied, .noAddressing, 1, 6⟩,
  ⟨0x61, .adc, .indirectX, .indirectX, 2, 6⟩,
  ⟨0x65, .adc, .zeroPage, .zeroPage, 2, 3⟩,
  ⟨0x66, .ror, .zeroPage, .zeroPage, 2, 5⟩,
  ⟨0x68, .pla, .implied, .noAddressing, 1, 4⟩,
  ⟨0x69, .adc, .immediate, .immediate, 2, 2⟩,
  ⟨0x6A, .ror, .accumulator, .noAddressing, 1, 2⟩,
  ⟨0x6C, .jmp, .indirect, .noAddressing, 3, 5⟩,
  ⟨0x6D, .adc, .absolute, .absolute, 3, 4⟩,
  ⟨0x6E, .ror, .absolute, .absolute, 3, 6⟩]

/-- Opcodes 0x70 to 0x7F of R84's full table. -/
def opTable7 : List OpRecord := [
  ⟨0x70, .bvs, .relative, .noAddressing, 2, 2⟩,
  ⟨0x71, .adc, .indirectY, .indirectY, 2, 5⟩,
  ⟨0x75, .adc, .zeroPageX, .zeroPageX, 2, 4⟩,
  ⟨0x76, .ror, .zeroPageX, .zeroPageX, 2, 6⟩,
  ⟨0x78, .sei, .implied, .noAddressing, 1, 2⟩,
  ⟨0x79, .adc, .absoluteY, .absoluteY, 3, 4⟩,
  ⟨0x7D, .adc, .absoluteX, .absoluteX, 3, 4⟩,
  ⟨0x7E, .ror, .absoluteX, .absoluteX, 3, 7⟩]

/-- Opcodes 0x80 to 0x8F of R84's full table. -/
def opTable8 : List OpRecord := [
  ⟨0x81, .sta, .indirectX, .indirectX, 2, 6⟩,
  ⟨0x84, .sty, .zeroPage, .zeroPage, 2, 3⟩,
  ⟨0x85, .sta, .zeroPage, .zeroPage, 2, 3⟩,
  ⟨0x86, .stx, .zeroPage, .zeroPage, 2, 3⟩,
  ⟨0x88, .dey, .implied, .noAddressing, 1, 2⟩,
  ⟨0x8A, .txa, .implied, .noAddressing, 1, 2⟩,
  ⟨0x8C, .sty, .absolute, .absolute, 3, 4⟩,
  ⟨0x8D, .sta, .absolute, .absolute, 3, 4⟩,
  ⟨0x8E, .stx, .absolute, .absolute, 3, 4⟩]

/-- Opcodes 0x90 to 0x9F of R84's full table. -/
def opTable9 : List OpRecord := [
  ⟨0x90, .bcc, .relative, .noAddressing, 2, 2⟩,
  ⟨0x91, .sta, .indirectY, .indirectY, 2, 6⟩,
  ⟨0x94, .sty, .zeroPageX, .zeroPageX, 2, 4⟩,
  ⟨0x95, .sta, .zeroPageX, .zeroPageX, 2, 4⟩,
  ⟨0x96, .stx, .zeroPageY, .zeroPageY, 2, 4⟩,
  ⟨0x98, .tya, .implied, .noAddressing, 1, 2⟩,
  ⟨0x99, .sta, .absoluteY, .absoluteY, 3, 5⟩,
  ⟨0x9A, .txs, .implied, .noAddressing, 1, 2⟩,
  ⟨0x9D, .sta, .absoluteX, .absoluteX, 3, 5⟩]

/-- Opcodes 0xA0 to 0xAF of R84's full table. -/
def opTableA : List OpRecord := [
  ⟨0xA0, .ldy, .immediate, .immediate, 2, 2⟩,
  ⟨0xA1, .lda, .indirectX, .indirectX, 2, 6⟩,
  ⟨0xA2, .ldx, .immediate, .immediate, 2, 2⟩,
  ⟨0xA4, .ldy, .zeroPage, .zeroPage, 2, 3⟩,
  ⟨0xA5, .lda, .zeroPage, .zeroPage, 2, 3⟩,
  ⟨0xA6, .ldx, .zeroPage, .zeroPage, 2, 3⟩,
  ⟨0xA8, .tay, .implied, .noAddressing, 1, 2⟩,
  ⟨0xA9, .lda, .immediate, .immediate, 2, 2⟩,
  ⟨0xAA, .tax, .implied, .noAddressing, 1, 2⟩,
  ⟨0xAC, .ldy, .absolute, .absolute, 3, 4⟩,
  ⟨0xAD, .lda, .absolute, .absolute, 3, 4⟩,
  ⟨0xAE, .ldx, .absolute, .absolute, 3, 4⟩]

/-- Opcodes 0xB0 to 0xBF of R84's full table. -/
def opTableB : List OpRecord := [
  ⟨0xB0, .bcs, .relative, .noAddressing, 2, 2⟩,
  ⟨0xB1, .lda, .indirectY, .indirectY, 2, 5⟩,
  ⟨0xB4, .ldy, .zeroPageX, .zeroPageX, 2, 4⟩,
  ⟨0xB5, .lda, .zeroPageX, .zeroPageX, 2, 4⟩,
  ⟨0xB6, .ldx, .zeroPageY, .zeroPageY, 2, 4⟩,
  ⟨0xB8, .clv, .implied, .noAddressing, 1, 2⟩,
  ⟨0xB9, .lda, .absoluteY, .absoluteY, 3, 4⟩,
  ⟨0xBA, .tsx, .implied, .noAddressing, 1, 2⟩,
  ⟨0xBC, .ldy, .absoluteX, .absoluteX, 3, 4⟩,
  ⟨0xBD, .lda, .absoluteX, .absoluteX, 3, 4⟩,
  ⟨0xBE, .ldx, .absoluteY, .absoluteY, 3, 4⟩]

/-- Opcodes 0xC0 to 0xCF of R84's full table. -/
def opTableC : List OpRecord := [
  ⟨0xC0, .cpy, .immediate, .immediate, 2, 2⟩,
  ⟨0xC1, .cmp, .indirectX, .indirectX, 2, 6⟩,
  ⟨0xC4, .cpy, .zeroPage, .zeroPage, 2, 3⟩,
  ⟨0xC5, .cmp, .zeroPage, .zeroPage, 2, 3⟩,
  ⟨0xC6, .dec, .zeroPage, .zeroPage, 2, 5⟩,
  ⟨0xC8, .iny, .implied, .noAddressing, 1, 2⟩,
  ⟨0xC9, .cmp, .immediate, .immediate, 2, 2⟩,
  ⟨0xCA, .dex, .implied, .noAddressing, 1, 2⟩,
  ⟨0xCC, .cpy, .absolute, .absolute, 3, 4⟩,
  ⟨0xCD, .cmp, .absolute, .absolute, 3, 4⟩,
  ⟨0xCE, .dec, .absolute, .absolute, 3, 6⟩]

/-- Opcodes 0xD0 to 0xDF of R84's full table. -/
def opTableD : List OpRecord := [
  ⟨0xD0, .bne, .relative, .noAddressing, 2, 2⟩,
  ⟨0xD1, .cmp, .indirectY, .indirectY, 2, 5⟩,
  ⟨0xD5, .cmp, .zeroPageX, .zeroPageX, 2, 4⟩,
  ⟨0xD6, .dec, .zeroPageX, .zeroPageX, 2, 6⟩,
  ⟨0xD8, .cld, .implied, .noAddressing, 1, 2⟩,
  ⟨0xD9, .cmp, .absoluteY, .absoluteY, 3, 4⟩,
  ⟨0xDD, .cmp, .absoluteX, .absoluteX, 3, 4⟩,
  ⟨0xDE, .dec, .absoluteX, .absoluteX, 3, 7⟩]

/-- Opcodes 0xE0 to 0xEF of R84's full table. -/
def opTableE : List OpRecord := [
  ⟨0xE0, .cpx, .immediate, .immediate, 2, 2⟩,
  ⟨0xE1, .sbc, .indirectX, .indirectX, 2, 6⟩,
  ⟨0xE4, .cpx, .zeroPage, .zeroPage, 2, 3⟩,
  ⟨0xE5, .sbc, .zeroPage, .zeroPage, 2, 3⟩,
  ⟨0xE6, .inc, .zeroPage, .zeroPage, 2, 5⟩,
  ⟨0xE8, .inx, .implied, .noAddressing, 1, 2⟩,
  ⟨0xE9, .sbc, .immediate, .immediate, 2, 2⟩,
  ⟨0xEA, .nop, .implied, .noAddressing, 1, 2⟩,
  ⟨0xEC, .cpx, .absolute, .absolute, 3, 4⟩,
  ⟨0xED, .sbc, .absolute, .absolute, 3, 4⟩,
  ⟨0xEE, .inc, .absolute, .absolute, 3, 6⟩]

/-- Opcodes 0xF0 to 0xFF of R84's full table. -/
def opTableF : List OpRecord := [
  ⟨0xF0, .beq, .relative, .noAddressing, 2, 2⟩,
  ⟨0xF1, .sbc, .indirectY, .indirectY, 2, 5⟩,
  ⟨0xF5, .sbc, .zeroPageX, .zeroPageX, 2, 4⟩,
  ⟨0xF6, .inc, .zeroPageX, .zeroPageX, 2, 6⟩,
  ⟨0xF8, .sed, .implied, .noAddressing, 1, 2⟩,
  ⟨0xF9, .sbc, .absoluteY, .absoluteY, 3, 4⟩,
  ⟨0xFD, .sbc, .absoluteX, .absoluteX, 3, 4⟩,
  ⟨0xFE, .inc, .absoluteX, .absoluteX, 3, 7⟩]

/-- The 151 records of R84, in opcode order. -/
def opTable : List OpRecord :=
  opTable0 ++ opTable1 ++ opTable2 ++ opTable3 ++ opTable4 ++ opTable5 ++ opTable6 ++ opTable7 ++
  opTable8 ++ opTable9 ++ opTableA ++ opTableB ++ opTableC ++ opTableD ++ opTableE ++ opTableF

/-- `OpTable(op)`: the record of an opcode byte, or absent (R101). -/
def lookup (op : Byte) : Option OpRecord := opTable.find? fun r => r.opcode == op

end Sys2Proof
end

