-- ==== Sys2Proof/Machine/State.lean ====
section
/-! DEFINITION. The machine state (10_state.md): the tuple `(A, X, Y, SP, P, PC, Mem, Run)` and the model's
own `cfg`, all plain data; the reasons a step can stop; the state at construction and right after reset. -/

namespace Sys2Proof.Machine

open Sys2Proof

/-- The 8-bit data registers and the stack pointer: with P and PC the whole register file (R20 to R24). -/
inductive Reg
  | a
  | x
  | y
  | sp
  deriving DecidableEq, Repr

/-- The eight bits of P by name (R10, R27); `Flag.bit` gives their places. -/
inductive Flag
  | c
  | z
  | i
  | d
  | b
  | u
  | v
  | n
  deriving DecidableEq, Repr

/-- Why the execution loop is halted (R37). -/
inductive HaltCause
  /-- The core has not run yet (D13). -/
  | notStarted
  /-- BRK was executed: a normal end, not a fault (R240, R272). -/
  | brk
  /-- The byte fetched at `pc` has no record (R270). -/
  | unimplementedOpcode (byte : Byte) (pc : Addr)
  /-- A handler resolved the NoAddressing sentinel for the opcode fetched at `pc` (R271). -/
  | invalidAddressingRequest (opcode : Byte) (pc : Addr)
  deriving DecidableEq, Repr

/-- The state of the execution loop (R37). -/
inductive RunState
  | running
  | halted (cause : HaltCause)
  deriving DecidableEq, Repr

/-- Memory as the list of the bytes that differ from `Memory.unlisted`, in one canonical form (`Memory.wf`
in Ops.lean). It stands for the whole array of 65536 bytes (R36). -/
abbrev Memory := List Host.Cell

/-- What an unlisted address reads as: 0, the value every byte has at construction (R40, R71, R290). -/
def Memory.unlisted : Byte := 0

/-- The machine state. The first eight fields are the spec's tuple (10_state.md); `cfg` is the model's own,
the OPEN parameters of R7 (notes/assumptions/1.md), and no step changes it. -/
structure State where
  /-- The accumulator A (R20). -/
  a   : Byte
  /-- Index register X (R21). -/
  x   : Byte
  /-- Index register Y (R22). -/
  y   : Byte
  /-- The stack pointer SP, an offset into page 1 (R24). -/
  sp  : Byte
  /-- The status register P (R27). -/
  p   : Byte
  /-- The program counter PC (R25); while an instruction executes it holds `pcb` (R13, R100). -/
  pc  : Addr
  /-- The memory Mem (R36). -/
  mem : Memory
  /-- The state of the execution loop, Run (R37). -/
  run : RunState
  /-- The parameters of the machine (R7). -/
  cfg : Params
  deriving DecidableEq, Repr

/-- Why there is no next state. -/
inductive Fault
  /-- Raised by `step` in a halted state: "A step is taken only when `Run = Running`" (R100). Safe: the
  hardware takes no step either, and the cause of the halt is in the state. -/
  | notRunning (cause : HaltCause)
  deriving DecidableEq, Repr

/-- Why an instruction or a host operation is rejected. -/
inductive Refusal
  /-- Raised by an arm of `exec` whose instruction has no meaning yet (none at present). Safe. -/
  | notModelled (mnemonic : String)
  /-- Raised by the host operation `load` on more than 0x7FFF bytes, which the spec refuses too (R291, U3).
  Safe: no state is answered, and the caller keeps the one it had. -/
  | imageTooLong (length : Nat)
  deriving DecidableEq, Repr

/-- What an instruction or a step answers. -/
abbrev Result := Host.Outcome State Fault Refusal

/-- A newly constructed core (R40, R290): every register and every byte of memory 0, and not started. -/
def State.construct : State :=
  { a := 0, x := 0, y := 0, sp := 0, p := 0, pc := 0, mem := [], run := .halted .notStarted, cfg := {} }

/-- The machine right after reset: a constructed core on which the host has called `reset` (R41, R292). Reset
leaves Mem and Run as they were, so PC is the word at the reset vector of a zero memory and the core is still
not started: "reset does not start execution" (R292). -/
def State.reset : State :=
  { a := 0x00, x := 0x00, y := 0x00, sp := 0xFD, p := 0x20, pc := 0x0000, mem := [],
    run := .halted .notStarted, cfg := {} }

/-- What the host's `run` answers (R272, R293, R298). -/
inductive RunResult
  /-- The run ended with this cause in this state. -/
  | finished (cause : HaltCause) (s : State)
  /-- The fuel ran out first: "not yet finished", never a halt (R109, D26). -/
  | notFinished (s : State)
  /-- The host operation or an instruction was rejected; `s` is the state it was rejected in. -/
  | rejected (r : Refusal) (s : State)
  deriving DecidableEq, Repr

end Sys2Proof.Machine
end

