-- ==== Sys2Proof/Machine/Ops.lean ====
section
/-! DEFINITION. The named operations over memory, registers, the stack and the run state: 20_memory.md R50 to
R52, 10_state.md R20 to R25, the stack engine of 44_stack.md R200 to R204 in both STACK_ORDERs, and halting, the one
thing BRK and the two faults do (60_exceptions.md R270 to R273). -/

namespace Sys2Proof.Machine

open Sys2Proof

/-! ### Memory -/

/-- The byte listed first for `a`, or what an unlisted address reads as. -/
def Memory.readNat : Memory → Nat → Byte
  | [], _ => Memory.unlisted
  | (k, b) :: m, a => if k = a then b else Memory.readNat m a

/-- The list without any entry for `a`. -/
def Memory.clear : Memory → Nat → Memory
  | [], _ => []
  | (k, b) :: m, a => if k = a then Memory.clear m a else (k, b) :: Memory.clear m a

/-- The list with an entry for `a` put in its place by address. -/
def Memory.place : Memory → Nat → Byte → Memory
  | [], a, v => [(a, v)]
  | (k, b) :: m, a, v => if a < k then (a, v) :: (k, b) :: m else (k, b) :: Memory.place m a v

/-- `MemRead(addr, 1)`: in bounds by construction, no fault, no side effect (R50, R56). -/
def Memory.read (m : Memory) (a : Addr) : Byte := Memory.readNat m a.toNat

/-- `MemWrite(addr, 1, v)`: sets one byte and changes no other (R50). Writing what an unlisted address reads
as takes the entry away, so that equal memories are equal lists. -/
def Memory.write (m : Memory) (a : Addr) (v : Byte) : Memory :=
  if v = Memory.unlisted then Memory.clear m a.toNat else Memory.place (Memory.clear m a.toNat) a.toNat v

/-- All addresses of the list are above `lo` (none: no bound), rising, inside the address space, and no entry
is what an unlisted address reads as. -/
def Memory.wfAbove : Option Nat → Memory → Bool
  | _, [] => true
  | lo, (k, b) :: m =>
    (match lo with
      | none => true
      | some l => decide (l < k)) && decide (k < 65536) && b != Memory.unlisted && Memory.wfAbove (some k) m

/-- The canonical form of memory. -/
def Memory.wf (m : Memory) : Bool := Memory.wfAbove none m

/-- `MemRead(addr, 2)`: little-endian, the high byte at `(addr + 1) mod 65536` (R51, R53, D11). -/
def Memory.read16 (m : Memory) (a : Addr) : Addr := word (m.read (a + 1)) (m.read a)

/-- `MemWrite(addr, 2, w)`: the low byte at `addr`, then the high byte at `(addr + 1) mod 65536` (R51). -/
def Memory.write16 (m : Memory) (a : Addr) (w : Addr) : Memory :=
  (m.write a (loByte w)).write (a + 1) (hiByte w)

/-- `ZpRead16(p)`: the high byte at `(p + 1) mod 256`, inside the zero page (R52). -/
def Memory.zpRead16 (m : Memory) (p : Byte) : Addr := word (m.read (zext16 (p + 1))) (m.read (zext16 p))

/-- Bytes at consecutive addresses from `a`, modulo 65536. -/
def Memory.writeBytes : Memory → Addr → List Byte → Memory
  | m, _, [] => m
  | m, a, b :: bs => Memory.writeBytes (m.write a b) (a + 1) bs

/-! ### Registers -/

def State.setA (s : State) (v : Byte) : State := { s with a := v }
def State.setX (s : State) (v : Byte) : State := { s with x := v }
def State.setY (s : State) (v : Byte) : State := { s with y := v }
def State.setSP (s : State) (v : Byte) : State := { s with sp := v }
/-- `P <- v`, all eight bits (R10). -/
def State.setP (s : State) (v : Byte) : State := { s with p := v }
/-- `PC <- target` (R12). -/
def State.setPC (s : State) (target : Addr) : State := { s with pc := target }
def State.setMem (s : State) (m : Memory) : State := { s with mem := m }
def State.setRun (s : State) (r : RunState) : State := { s with run := r }

/-- A register name in an expression reads it (R10). -/
def State.get (s : State) : Reg → Byte
  | .a => s.a
  | .x => s.x
  | .y => s.y
  | .sp => s.sp

/-- `R <- v` (R10). -/
def State.set (s : State) : Reg → Byte → State
  | .a, v => s.setA v
  | .x, v => s.setX v
  | .y, v => s.setY v
  | .sp, v => s.setSP v

/-- `MemWrite(addr, 1, v)` on the machine's memory. -/
def State.store (s : State) (a : Addr) (v : Byte) : State := s.setMem (s.mem.write a v)

/-! ### The stack engine -/

/-- The address SP designates, `0x0100 + SP`, always in page 1 (R24). -/
def stackAddr (sp : Byte) : Addr := 0x0100 + zext16 sp

/-- `Push8(v)`: SP wraps silently; the order of the SP update and the write is the parameter (R200, R204). -/
def State.push8 (s : State) (v : Byte) : State :=
  match s.cfg.stackOrder with
  | .decThenWrite => (s.setSP (s.sp - 1)).store (stackAddr (s.sp - 1)) v
  | .writeThenDec => (s.store (stackAddr s.sp) v).setSP (s.sp - 1)

/-- `Pop8()`: the value popped and the state after it (R201, R204). The byte stays in memory. -/
def State.pop8 (s : State) : Byte × State :=
  match s.cfg.stackOrder with
  | .decThenWrite => (s.mem.read (stackAddr s.sp), s.setSP (s.sp + 1))
  | .writeThenDec => (s.mem.read (stackAddr (s.sp + 1)), s.setSP (s.sp + 1))

/-- `Push16(w)`: the high byte first (R202). -/
def State.push16 (s : State) (w : Addr) : State := (s.push8 (hiByte w)).push8 (loByte w)

/-- `Pop16()`: the low byte first (R203). -/
def State.pop16 (s : State) : Addr × State :=
  let lo := s.pop8
  let hi := lo.2.pop8
  (word hi.1 lo.1, hi.2)

/-! ### Halting, and the status a return restores -/

/-- `halt cause`: the one effect of BRK and of every fault (R12, R240, R272). No handler runs, nothing is
pushed, no vector is read and no flag changes (R274, R276). -/
def State.halt (s : State) (c : HaltCause) : State := s.setRun (.halted c)

/-- `raise InvalidAddressingRequest(op, pcb - 1)`, with PC holding `pcb` (R70, R271). -/
def State.raiseInvalidAddressing (s : State) (op : Byte) : State :=
  s.halt (.invalidAddressingRequest op (s.pc - 1))

/-- The status PLP and RTI load from a pulled byte: `P <- (v & 0xCF) | 0x20`, bit 4 cleared and bit 5 set
(R208, R224, D5). -/
def State.loadStatus (s : State) (v : Byte) : State := s.setP ((v &&& 0xCF) ||| 0x20)

/-- The cause codes (R270, R271, D15); the two causes that are no faults have none. -/
def HaltCause.code : HaltCause → Option Nat
  | .notStarted => none
  | .brk => none
  | .unimplementedOpcode _ _ => some 1
  | .invalidAddressingRequest _ _ => some 2

end Sys2Proof.Machine
end

