-- ==== Sys2Proof/Machine/Flags.lean ====
section
/-! DEFINITION. The status register by bits (10_state.md R27 to R35), the flag logic (42_alu.md R150) and the ALU
primitives with the flags they give (42_alu.md R151 to R155, 43_shift_incdec.md R180 to R184). -/

namespace Sys2Proof.Machine

open Sys2Proof

/-! ### Bits of P -/

/-- The place of a flag in P (R10, R27). -/
def Flag.bit : Flag → Nat
  | .c => 0
  | .z => 1
  | .i => 2
  | .d => 3
  | .b => 4
  | .u => 5
  | .v => 6
  | .n => 7

/-- The byte with only this flag's bit set. -/
def Flag.mask : Flag → Byte
  | .c => 0x01
  | .z => 0x02
  | .i => 0x04
  | .d => 0x08
  | .b => 0x10
  | .u => 0x20
  | .v => 0x40
  | .n => 0x80

/-- A flag read from a status byte. -/
def flagOf (p : Byte) (f : Flag) : Bool := p.getLsbD f.bit

/-- A status byte with one flag written and the other seven bits as they were (R10). -/
def withFlag (p : Byte) (f : Flag) (b : Bool) : Byte := if b then p ||| f.mask else p &&& ~~~f.mask

/-- `P.f` in an expression (R10). -/
def State.flag (s : State) (f : Flag) : Bool := flagOf s.p f

/-- `P.f <- b` (R10). -/
def State.setFlag (s : State) (f : Flag) (b : Bool) : State := s.setP (withFlag s.p f b)

/-- `SetZN(v)`: `P.Z <- bool(v = 0); P.N <- v[7]`, all other flags left untouched (R150). -/
def State.setZN (s : State) (v : Byte) : State := (s.setFlag .z (v == 0)).setFlag .n (v.getLsbD 7)

/-! ### Addition, subtraction and compare -/

/-- What `Add8` returns. -/
structure Added where
  result   : Byte
  carry    : Bool
  overflow : Bool
  deriving DecidableEq, Repr

/-- `Add8(a, b, cin)`: the 9-bit sum, its low byte, `sum > 0xFF`, and the source's overflow test (R151). It is
binary for every value of P.D (R152). -/
def add8 (a b : Byte) (cin : Bool) : Added :=
  let sum := a.toNat + b.toNat + cin.toNat
  { result := BitVec.ofNat 8 sum
    carry := decide (sum > 0xFF)
    overflow := ((a.toNat ^^^ sum) &&& (b.toNat ^^^ sum) &&& 0x80) != 0 }

/-- `Compare(t, m)`: `P.C <- bool(t >= m)`, unsigned, and `SetZN((t - m) mod 256)` (R155). -/
def State.compare (s : State) (t m : Byte) : State :=
  (s.setFlag .c (decide (m.toNat ≤ t.toNat))).setZN (t - m)

/-! ### Shifts, rotates, increment and decrement -/

/-- What a shift or rotate returns: the shifted byte and the bit shifted out. -/
structure Shifted where
  result : Byte
  carry  : Bool
  deriving DecidableEq, Repr

/-- `Asl8(v)`: the carry in is not used (R180). -/
def asl8 (v : Byte) (_ : Bool) : Shifted := { result := v <<< 1, carry := v.getLsbD 7 }

/-- `Lsr8(v)`: the carry in is not used (R181). -/
def lsr8 (v : Byte) (_ : Bool) : Shifted := { result := v >>> 1, carry := v.getLsbD 0 }

/-- `Rol8(v, cin)`: the carry enters bit 0 (R182). -/
def rol8 (v : Byte) (cin : Bool) : Shifted :=
  { result := (v <<< 1) ||| (if cin then 0x01 else 0x00), carry := v.getLsbD 7 }

/-- `Ror8(v, cin)`: the carry enters bit 7 (R183). -/
def ror8 (v : Byte) (cin : Bool) : Shifted :=
  { result := (v >>> 1) ||| (if cin then 0x80 else 0x00), carry := v.getLsbD 0 }

/-- `Inc8(v)`, modulo 256 (R184). -/
def inc8 (v : Byte) : Byte := v + 1

/-- `Dec8(v)`, `(v + 255) mod 256` (R184). -/
def dec8 (v : Byte) : Byte := v + 255

end Sys2Proof.Machine
end

