-- ==== Sys2Proof/Machine/Operands.lean ====
section
/-! DEFINITION. The addressing resolver (20_memory.md R60 to R70) and the two ways an instruction rule uses it:
for an effective address and for the operand byte M. `effectiveAddress` starts from the operand field the decoder
has assembled; `resolve` is the spec's own function, which reads the field at `pcb` first. -/

namespace Sys2Proof.Machine

open Sys2Proof

/-- The effective address of an operand form (R61 to R69): `none` is the request the resolver refuses, for
the forms recorded as NoAddressing (R70, R85). It writes nothing, and it reads memory only for the zero-page
pointers of the indirect forms. -/
def effectiveAddress (o : Operand) (pcb : Addr) (x y : Byte) (m : Memory) : Option Addr :=
  match o with
  | .immediate _ => some pcb
  | .zeroPage z => some (zext16 z)
  | .zeroPageX z => some (zext16 (z + x))
  | .zeroPageY z => some (zext16 (z + y))
  | .absolute w => some w
  | .absoluteX w => some (w + zext16 x)
  | .absoluteY w => some (w + zext16 y)
  | .indirectX z => some (m.zpRead16 (z + x))
  | .indirectY z => some (m.zpRead16 z + zext16 y)
  | .accumulator => none
  | .implied => none
  | .relative _ => none
  | .indirect _ => none

/-- The operand field of a mode as it stands in memory at `pcb` (R61 to R69, R82). -/
def operandAt (mode : AddressingMode) (pcb : Addr) (m : Memory) : Operand :=
  match mode with
  | .immediate => .immediate (m.read pcb)
  | .zeroPage => .zeroPage (m.read pcb)
  | .zeroPageX => .zeroPageX (m.read pcb)
  | .zeroPageY => .zeroPageY (m.read pcb)
  | .absolute => .absolute (m.read16 pcb)
  | .absoluteX => .absoluteX (m.read16 pcb)
  | .absoluteY => .absoluteY (m.read16 pcb)
  | .indirectX => .indirectX (m.read pcb)
  | .indirectY => .indirectY (m.read pcb)
  | .noAddressing => .implied

/-- `Resolve(mode, pcb, X, Y, Mem)` (R60): `none` is InvalidAddressingRequest. -/
def resolve (mode : AddressingMode) (pcb : Addr) (x y : Byte) (m : Memory) : Option Addr :=
  effectiveAddress (operandAt mode pcb m) pcb x y m

/-- The effective address of an operand form in a state whose PC holds `pcb` (R13). -/
def State.ea (s : State) (o : Operand) : Option Addr := effectiveAddress o s.pc s.x s.y s.mem

/-- The operand byte `M`: an immediate is the raw byte of the instruction, any other form the byte at the
effective address (R13, R61, R82). -/
def State.operandByte (s : State) (o : Operand) : Option Byte :=
  match o with
  | .immediate i => some i
  | .zeroPage _ | .zeroPageX _ | .zeroPageY _ | .absolute _ | .absoluteX _ | .absoluteY _ | .indirectX _
  | .indirectY _ | .accumulator | .implied | .relative _ | .indirect _ => (s.ea o).map s.mem.read

/-- `EA <- Resolve(...)`, then the rest of the rule; a request on NoAddressing halts the machine (R70, R104). -/
def withEA (i : Instr) (s : State) (rule : Addr → State) : Result :=
  match s.ea i.operand with
  | some ea => .next (rule ea)
  | none => .next (s.raiseInvalidAddressing i.opcode)

/-- `EA <- Resolve(...); M <- MemRead(EA, 1)`, then the rest of the rule (R70, R104). -/
def withOperand (i : Instr) (s : State) (rule : Byte → State) : Result :=
  match s.operandByte i.operand with
  | some m => .next (rule m)
  | none => .next (s.raiseInvalidAddressing i.opcode)

end Sys2Proof.Machine
end

