-- ==== Sys2Proof/Machine/Alu.lean ====
section
/-! DEFINITION. Arithmetic, logic, compare and bit test (42_alu.md R160 to R169), over the primitives of
Flags.lean. Decimal mode changes nothing (R152). None writes PC and none raises an exception. -/

namespace Sys2Proof.Machine

open Sys2Proof

/-- `(r, c, v) <- Add8(A, m, P.C); A <- r; P.C <- c; P.V <- v; SetZN(A)` (R160). -/
def addToA (m : Byte) (s : State) : State :=
  let r := add8 s.a m (s.flag .c)
  (((s.set .a r.result).setFlag .c r.carry).setFlag .v r.overflow).setZN r.result

/-- ADC's rule (R160). -/
def addWithCarry (i : Instr) (s : State) : Result :=
  withOperand i s fun m => addToA m s

/-- SBC's rule: the same addition of the one's complement `255 - M` (R153, R161). -/
def subWithBorrow (i : Instr) (s : State) : Result :=
  withOperand i s fun m => addToA (~~~m) s

/-- A logical operation into A: `A <- A op M; SetZN(A)` (R154). -/
def logic (op : Byte → Byte → Byte) (i : Instr) (s : State) : Result :=
  withOperand i s fun m => (s.set .a (op s.a m)).setZN (op s.a m)

/-- A compare: `Compare(R, M)`; no register is written (R155). -/
def compareReg (r : Reg) (i : Instr) (s : State) : Result :=
  withOperand i s fun m => s.compare (s.get r) m

/-- BIT's rule: Z from `A & M`, N and V from bits 7 and 6 of M itself (R169). -/
def bitTest (i : Instr) (s : State) : Result :=
  withOperand i s fun m =>
    ((s.setFlag .z (s.a &&& m == 0)).setFlag .n (m.getLsbD 7)).setFlag .v (m.getLsbD 6)

/-- ADC (indirect,X), 0x61 (R160). -/
def execAdcIndX (z : Byte) (s : State) : Result := addWithCarry (.adcIndX z) s

/-- ADC zero page, 0x65 (R160). -/
def execAdcZp (z : Byte) (s : State) : Result := addWithCarry (.adcZp z) s

/-- ADC immediate, 0x69 (R160). -/
def execAdcImm (i : Byte) (s : State) : Result := addWithCarry (.adcImm i) s

/-- ADC absolute, 0x6D (R160). -/
def execAdcAbs (w : Addr) (s : State) : Result := addWithCarry (.adcAbs w) s

/-- ADC (indirect),Y, 0x71 (R160). -/
def execAdcIndY (z : Byte) (s : State) : Result := addWithCarry (.adcIndY z) s

/-- ADC zero page,X, 0x75 (R160). -/
def execAdcZpX (z : Byte) (s : State) : Result := addWithCarry (.adcZpX z) s

/-- ADC absolute,Y, 0x79 (R160). -/
def execAdcAbsY (w : Addr) (s : State) : Result := addWithCarry (.adcAbsY w) s

/-- ADC absolute,X, 0x7D (R160). -/
def execAdcAbsX (w : Addr) (s : State) : Result := addWithCarry (.adcAbsX w) s

/-- SBC (indirect,X), 0xE1 (R161). -/
def execSbcIndX (z : Byte) (s : State) : Result := subWithBorrow (.sbcIndX z) s

/-- SBC zero page, 0xE5 (R161). -/
def execSbcZp (z : Byte) (s : State) : Result := subWithBorrow (.sbcZp z) s

/-- SBC immediate, 0xE9 (R161). -/
def execSbcImm (i : Byte) (s : State) : Result := subWithBorrow (.sbcImm i) s

/-- SBC absolute, 0xED (R161). -/
def execSbcAbs (w : Addr) (s : State) : Result := subWithBorrow (.sbcAbs w) s

/-- SBC (indirect),Y, 0xF1 (R161). -/
def execSbcIndY (z : Byte) (s : State) : Result := subWithBorrow (.sbcIndY z) s

/-- SBC zero page,X, 0xF5 (R161). -/
def execSbcZpX (z : Byte) (s : State) : Result := subWithBorrow (.sbcZpX z) s

/-- SBC absolute,Y, 0xF9 (R161). -/
def execSbcAbsY (w : Addr) (s : State) : Result := subWithBorrow (.sbcAbsY w) s

/-- SBC absolute,X, 0xFD (R161). -/
def execSbcAbsX (w : Addr) (s : State) : Result := subWithBorrow (.sbcAbsX w) s

/-- AND (indirect,X), 0x21 (R162). -/
def execAndIndX (z : Byte) (s : State) : Result := logic (· &&& ·) (.andIndX z) s

/-- AND zero page, 0x25 (R162). -/
def execAndZp (z : Byte) (s : State) : Result := logic (· &&& ·) (.andZp z) s

/-- AND immediate, 0x29 (R162). -/
def execAndImm (i : Byte) (s : State) : Result := logic (· &&& ·) (.andImm i) s

/-- AND absolute, 0x2D (R162). -/
def execAndAbs (w : Addr) (s : State) : Result := logic (· &&& ·) (.andAbs w) s

/-- AND (indirect),Y, 0x31 (R162). -/
def execAndIndY (z : Byte) (s : State) : Result := logic (· &&& ·) (.andIndY z) s

/-- AND zero page,X, 0x35 (R162). -/
def execAndZpX (z : Byte) (s : State) : Result := logic (· &&& ·) (.andZpX z) s

/-- AND absolute,Y, 0x39 (R162). -/
def execAndAbsY (w : Addr) (s : State) : Result := logic (· &&& ·) (.andAbsY w) s

/-- AND absolute,X, 0x3D (R162). -/
def execAndAbsX (w : Addr) (s : State) : Result := logic (· &&& ·) (.andAbsX w) s

/-- ORA (indirect,X), 0x01 (R163). -/
def execOraIndX (z : Byte) (s : State) : Result := logic (· ||| ·) (.oraIndX z) s

/-- ORA zero page, 0x05 (R163). -/
def execOraZp (z : Byte) (s : State) : Result := logic (· ||| ·) (.oraZp z) s

/-- ORA immediate, 0x09 (R163). -/
def execOraImm (i : Byte) (s : State) : Result := logic (· ||| ·) (.oraImm i) s

/-- ORA absolute, 0x0D (R163). -/
def execOraAbs (w : Addr) (s : State) : Result := logic (· ||| ·) (.oraAbs w) s

/-- ORA (indirect),Y, 0x11 (R163). -/
def execOraIndY (z : Byte) (s : State) : Result := logic (· ||| ·) (.oraIndY z) s

/-- ORA zero page,X, 0x15 (R163). -/
def execOraZpX (z : Byte) (s : State) : Result := logic (· ||| ·) (.oraZpX z) s

/-- ORA absolute,Y, 0x19 (R163). -/
def execOraAbsY (w : Addr) (s : State) : Result := logic (· ||| ·) (.oraAbsY w) s

/-- ORA absolute,X, 0x1D (R163). -/
def execOraAbsX (w : Addr) (s : State) : Result := logic (· ||| ·) (.oraAbsX w) s

/-- EOR (indirect,X), 0x41 (R164). -/
def execEorIndX (z : Byte) (s : State) : Result := logic (· ^^^ ·) (.eorIndX z) s

/-- EOR zero page, 0x45 (R164). -/
def execEorZp (z : Byte) (s : State) : Result := logic (· ^^^ ·) (.eorZp z) s

/-- EOR immediate, 0x49 (R164). -/
def execEorImm (i : Byte) (s : State) : Result := logic (· ^^^ ·) (.eorImm i) s

/-- EOR absolute, 0x4D (R164). -/
def execEorAbs (w : Addr) (s : State) : Result := logic (· ^^^ ·) (.eorAbs w) s

/-- EOR (indirect),Y, 0x51 (R164). -/
def execEorIndY (z : Byte) (s : State) : Result := logic (· ^^^ ·) (.eorIndY z) s

/-- EOR zero page,X, 0x55 (R164). -/
def execEorZpX (z : Byte) (s : State) : Result := logic (· ^^^ ·) (.eorZpX z) s

/-- EOR absolute,Y, 0x59 (R164). -/
def execEorAbsY (w : Addr) (s : State) : Result := logic (· ^^^ ·) (.eorAbsY w) s

/-- EOR absolute,X, 0x5D (R164). -/
def execEorAbsX (w : Addr) (s : State) : Result := logic (· ^^^ ·) (.eorAbsX w) s

/-- CMP (indirect,X), 0xC1 (R165). -/
def execCmpIndX (z : Byte) (s : State) : Result := compareReg .a (.cmpIndX z) s

/-- CMP zero page, 0xC5 (R165). -/
def execCmpZp (z : Byte) (s : State) : Result := compareReg .a (.cmpZp z) s

/-- CMP immediate, 0xC9 (R165). -/
def execCmpImm (i : Byte) (s : State) : Result := compareReg .a (.cmpImm i) s

/-- CMP absolute, 0xCD (R165). -/
def execCmpAbs (w : Addr) (s : State) : Result := compareReg .a (.cmpAbs w) s

/-- CMP (indirect),Y, 0xD1 (R165). -/
def execCmpIndY (z : Byte) (s : State) : Result := compareReg .a (.cmpIndY z) s

/-- CMP zero page,X, 0xD5 (R165). -/
def execCmpZpX (z : Byte) (s : State) : Result := compareReg .a (.cmpZpX z) s

/-- CMP absolute,Y, 0xD9 (R165). -/
def execCmpAbsY (w : Addr) (s : State) : Result := compareReg .a (.cmpAbsY w) s

/-- CMP absolute,X, 0xDD (R165). -/
def execCmpAbsX (w : Addr) (s : State) : Result := compareReg .a (.cmpAbsX w) s

/-- CPX immediate, 0xE0 (R166). -/
def execCpxImm (i : Byte) (s : State) : Result := compareReg .x (.cpxImm i) s

/-- CPX zero page, 0xE4 (R166). -/
def execCpxZp (z : Byte) (s : State) : Result := compareReg .x (.cpxZp z) s

/-- CPX absolute, 0xEC (R166). -/
def execCpxAbs (w : Addr) (s : State) : Result := compareReg .x (.cpxAbs w) s

/-- CPY immediate, 0xC0 (R167). -/
def execCpyImm (i : Byte) (s : State) : Result := compareReg .y (.cpyImm i) s

/-- CPY zero page, 0xC4 (R167). -/
def execCpyZp (z : Byte) (s : State) : Result := compareReg .y (.cpyZp z) s

/-- CPY absolute, 0xCC (R167). -/
def execCpyAbs (w : Addr) (s : State) : Result := compareReg .y (.cpyAbs w) s

/-- BIT zero page, 0x24 (R169). -/
def execBitZp (z : Byte) (s : State) : Result := bitTest (.bitZp z) s

/-- BIT absolute, 0x2C (R169). -/
def execBitAbs (w : Addr) (s : State) : Result := bitTest (.bitAbs w) s

end Sys2Proof.Machine
end

