-- ==== Sys2Proof/Machine/ControlFlow.lean ====
section
/-! DEFINITION. Control flow (45_control_flow.md R220 to R240). Every instruction here but BRK writes PC
itself, whatever it does (R105). No target needs an alignment (R235). -/

namespace Sys2Proof.Machine

open Sys2Proof

/-- The word a JMP indirect reads at `vec`: the high byte comes from the same page as the low byte, so that
0xXXFF wraps to 0xXX00 (R221). -/
def readVector (m : Memory) (vec : Addr) : Addr :=
  word (m.read ((vec &&& 0xFF00) ||| ((vec + 1) &&& 0x00FF))) (m.read vec)

/-- JSR: `Push16(pcb + 1)`, then the target is read at `pcb`, in that order (R222, D24). The operand bytes
stand at `pcb` and `pcb + 1`; a push that lands on one of them replaces it before the target is read (R72). -/
def callSubroutine (w : Addr) (s : State) : State :=
  let operandsInPlace := s.setMem (s.mem.write16 s.pc w)
  (s.push16 (s.pc + 1)).setPC ((operandsInPlace.push16 (s.pc + 1)).mem.read16 s.pc)

/-- `v <- Pop8(); P <- (v & 0xCF) | 0x20; PC <- Pop16()`: unlike RTS, nothing is added (R224). -/
def returnFromInterrupt (s : State) : State :=
  let afterStatus := s.pop8.2.loadStatus s.pop8.1
  afterStatus.pop16.2.setPC afterStatus.pop16.1

/-- The branch rule: the base of the offset is `pcb + 1`, the address of the next instruction, and a branch
not taken writes that address (R225, D6). -/
def branch (taken : Bool) (o : Byte) (s : State) : State :=
  s.setPC (if taken then s.pc + 1 + sext16 o else s.pc + 1)

/-- JMP absolute, 0x4C (R220). -/
def execJmpAbs (w : Addr) (s : State) : Result := .next (s.setPC w)

/-- JMP indirect, 0x6C (R221). -/
def execJmpInd (w : Addr) (s : State) : Result := .next (s.setPC (readVector s.mem w))

/-- JSR absolute, 0x20 (R222). -/
def execJsr (w : Addr) (s : State) : Result := .next (callSubroutine w s)

/-- RTS implied, 0x60 (R223). -/
def execRts (s : State) : Result := .next (s.pop16.2.setPC (s.pop16.1 + 1))

/-- RTI implied, 0x40 (R224). -/
def execRti (s : State) : Result := .next (returnFromInterrupt s)

/-- BCC relative, 0x90 (R226). -/
def execBcc (o : Byte) (s : State) : Result := .next (branch (!s.flag .c) o s)

/-- BCS relative, 0xB0 (R227). -/
def execBcs (o : Byte) (s : State) : Result := .next (branch (s.flag .c) o s)

/-- BEQ relative, 0xF0 (R228). -/
def execBeq (o : Byte) (s : State) : Result := .next (branch (s.flag .z) o s)

/-- BNE relative, 0xD0 (R229). -/
def execBne (o : Byte) (s : State) : Result := .next (branch (!s.flag .z) o s)

/-- BMI relative, 0x30 (R230). -/
def execBmi (o : Byte) (s : State) : Result := .next (branch (s.flag .n) o s)

/-- BPL relative, 0x10 (R231). -/
def execBpl (o : Byte) (s : State) : Result := .next (branch (!s.flag .n) o s)

/-- BVC relative, 0x50 (R232). -/
def execBvc (o : Byte) (s : State) : Result := .next (branch (!s.flag .v) o s)

/-- BVS relative, 0x70 (R233). -/
def execBvs (o : Byte) (s : State) : Result := .next (branch (s.flag .v) o s)

/-- BRK implied, 0x00 (R240). A halt and not a trap: nothing is pushed and no flag changes (R274). -/
def execBrk (s : State) : Result := .next (s.halt .brk)

end Sys2Proof.Machine
end

