-- ==== Sys2Proof/Machine/FlagsMisc.lean ====
section
/-! DEFINITION. The flag instructions and NOP (46_flags_misc.md R250 to R257). None writes PC and none
raises an exception. -/

namespace Sys2Proof.Machine

open Sys2Proof

/-- CLC implied, 0x18 (R250). -/
def execClc (s : State) : Result := .next (s.setFlag .c false)

/-- SEC implied, 0x38 (R251). -/
def execSec (s : State) : Result := .next (s.setFlag .c true)

/-- CLI implied, 0x58 (R252). -/
def execCli (s : State) : Result := .next (s.setFlag .i false)

/-- SEI implied, 0x78 (R253). -/
def execSei (s : State) : Result := .next (s.setFlag .i true)

/-- CLD implied, 0xD8 (R254). -/
def execCld (s : State) : Result := .next (s.setFlag .d false)

/-- SED implied, 0xF8 (R255). -/
def execSed (s : State) : Result := .next (s.setFlag .d true)

/-- CLV implied, 0xB8 (R256). -/
def execClv (s : State) : Result := .next (s.setFlag .v false)

/-- NOP implied, 0xEA (R257). -/
def execNop (s : State) : Result := .next s

end Sys2Proof.Machine
end

