-- ==== Sys2Proof/Machine/LoadStore.lean ====
section
/-! DEFINITION. Loads, stores and register transfers (41_load_store_transfer.md R130 to R141). None writes
PC and none raises an exception. -/

namespace Sys2Proof.Machine

open Sys2Proof

/-- A load: `R <- MemRead(EA, 1); SetZN(R)`. -/
def load (r : Reg) (i : Instr) (s : State) : Result :=
  withOperand i s fun m => (s.set r m).setZN m

/-- A store: `MemWrite(EA, 1, R)`; EA is not read first and no flag is written. -/
def store (r : Reg) (i : Instr) (s : State) : Result :=
  withEA i s fun ea => s.store ea (s.get r)

/-- A transfer that sets flags: `dst <- src; SetZN(dst)`. -/
def transfer (src dst : Reg) (s : State) : Result :=
  .next ((s.set dst (s.get src)).setZN (s.get src))

/-- LDA (indirect,X), 0xA1 (R130). -/
def execLdaIndX (z : Byte) (s : State) : Result := load .a (.ldaIndX z) s

/-- LDA zero page, 0xA5 (R130). -/
def execLdaZp (z : Byte) (s : State) : Result := load .a (.ldaZp z) s

/-- LDA immediate, 0xA9 (R130). -/
def execLdaImm (i : Byte) (s : State) : Result := load .a (.ldaImm i) s

/-- LDA absolute, 0xAD (R130). -/
def execLdaAbs (w : Addr) (s : State) : Result := load .a (.ldaAbs w) s

/-- LDA (indirect),Y, 0xB1 (R130). -/
def execLdaIndY (z : Byte) (s : State) : Result := load .a (.ldaIndY z) s

/-- LDA zero page,X, 0xB5 (R130). -/
def execLdaZpX (z : Byte) (s : State) : Result := load .a (.ldaZpX z) s

/-- LDA absolute,Y, 0xB9 (R130). -/
def execLdaAbsY (w : Addr) (s : State) : Result := load .a (.ldaAbsY w) s

/-- LDA absolute,X, 0xBD (R130). -/
def execLdaAbsX (w : Addr) (s : State) : Result := load .a (.ldaAbsX w) s

/-- LDX immediate, 0xA2 (R131). -/
def execLdxImm (i : Byte) (s : State) : Result := load .x (.ldxImm i) s

/-- LDX zero page, 0xA6 (R131). -/
def execLdxZp (z : Byte) (s : State) : Result := load .x (.ldxZp z) s

/-- LDX absolute, 0xAE (R131). -/
def execLdxAbs (w : Addr) (s : State) : Result := load .x (.ldxAbs w) s

/-- LDX zero page,Y, 0xB6 (R131). -/
def execLdxZpY (z : Byte) (s : State) : Result := load .x (.ldxZpY z) s

/-- LDX absolute,Y, 0xBE (R131). -/
def execLdxAbsY (w : Addr) (s : State) : Result := load .x (.ldxAbsY w) s

/-- LDY immediate, 0xA0 (R132). -/
def execLdyImm (i : Byte) (s : State) : Result := load .y (.ldyImm i) s

/-- LDY zero page, 0xA4 (R132). -/
def execLdyZp (z : Byte) (s : State) : Result := load .y (.ldyZp z) s

/-- LDY absolute, 0xAC (R132). -/
def execLdyAbs (w : Addr) (s : State) : Result := load .y (.ldyAbs w) s

/-- LDY zero page,X, 0xB4 (R132). -/
def execLdyZpX (z : Byte) (s : State) : Result := load .y (.ldyZpX z) s

/-- LDY absolute,X, 0xBC (R132). -/
def execLdyAbsX (w : Addr) (s : State) : Result := load .y (.ldyAbsX w) s

/-- STA (indirect,X), 0x81 (R133). -/
def execStaIndX (z : Byte) (s : State) : Result := store .a (.staIndX z) s

/-- STA zero page, 0x85 (R133). -/
def execStaZp (z : Byte) (s : State) : Result := store .a (.staZp z) s

/-- STA absolute, 0x8D (R133). -/
def execStaAbs (w : Addr) (s : State) : Result := store .a (.staAbs w) s

/-- STA (indirect),Y, 0x91 (R133). -/
def execStaIndY (z : Byte) (s : State) : Result := store .a (.staIndY z) s

/-- STA zero page,X, 0x95 (R133). -/
def execStaZpX (z : Byte) (s : State) : Result := store .a (.staZpX z) s

/-- STA absolute,Y, 0x99 (R133). -/
def execStaAbsY (w : Addr) (s : State) : Result := store .a (.staAbsY w) s

/-- STA absolute,X, 0x9D (R133). -/
def execStaAbsX (w : Addr) (s : State) : Result := store .a (.staAbsX w) s

/-- STX zero page, 0x86 (R134). -/
def execStxZp (z : Byte) (s : State) : Result := store .x (.stxZp z) s

/-- STX absolute, 0x8E (R134). -/
def execStxAbs (w : Addr) (s : State) : Result := store .x (.stxAbs w) s

/-- STX zero page,Y, 0x96 (R134). -/
def execStxZpY (z : Byte) (s : State) : Result := store .x (.stxZpY z) s

/-- STY zero page, 0x84 (R135). -/
def execStyZp (z : Byte) (s : State) : Result := store .y (.styZp z) s

/-- STY absolute, 0x8C (R135). -/
def execStyAbs (w : Addr) (s : State) : Result := store .y (.styAbs w) s

/-- STY zero page,X, 0x94 (R135). -/
def execStyZpX (z : Byte) (s : State) : Result := store .y (.styZpX z) s

/-- TAX implied, 0xAA (R136). -/
def execTax (s : State) : Result := transfer .a .x s

/-- TAY implied, 0xA8 (R137). -/
def execTay (s : State) : Result := transfer .a .y s

/-- TXA implied, 0x8A (R138). -/
def execTxa (s : State) : Result := transfer .x .a s

/-- TYA implied, 0x98 (R139). -/
def execTya (s : State) : Result := transfer .y .a s

/-- TSX implied, 0xBA (R140). -/
def execTsx (s : State) : Result := transfer .sp .x s

/-- TXS implied, 0x9A (R141). No flag is written. -/
def execTxs (s : State) : Result := .next (s.set .sp s.x)

end Sys2Proof.Machine
end

