-- ==== Sys2Proof/Machine/ShiftIncDec.lean ====
section
/-! DEFINITION. Shifts, rotates, increments and decrements (43_shift_incdec.md R185 to R194). A memory form
is one read of EA and one write of the result to EA (R72). None writes PC and none raises an exception. -/

namespace Sys2Proof.Machine

open Sys2Proof

/-- A shift or rotate of the accumulator: `(r, c) <- f(A, P.C); A <- r; P.C <- c; SetZN(r)`. -/
def shiftA (f : Byte → Bool → Shifted) (s : State) : Result :=
  let r := f s.a (s.flag .c)
  .next (((s.set .a r.result).setFlag .c r.carry).setZN r.result)

/-- A shift or rotate of the byte at EA: `(r, c) <- f(MemRead(EA, 1), P.C); MemWrite(EA, 1, r); P.C <- c;
SetZN(r)`. -/
def shiftMem (f : Byte → Bool → Shifted) (i : Instr) (s : State) : Result :=
  withEA i s fun ea =>
    let r := f (s.mem.read ea) (s.flag .c)
    ((s.store ea r.result).setFlag .c r.carry).setZN r.result

/-- INC and DEC: `r <- f(MemRead(EA, 1)); MemWrite(EA, 1, r); SetZN(r)`. -/
def modifyMem (f : Byte → Byte) (i : Instr) (s : State) : Result :=
  withEA i s fun ea => (s.store ea (f (s.mem.read ea))).setZN (f (s.mem.read ea))

/-- INX, INY, DEX, DEY: `R <- f(R); SetZN(R)`. -/
def modifyReg (f : Byte → Byte) (r : Reg) (s : State) : Result :=
  .next ((s.set r (f (s.get r))).setZN (f (s.get r)))

/-- ASL zero page, 0x06 (R185). -/
def execAslZp (z : Byte) (s : State) : Result := shiftMem asl8 (.aslZp z) s

/-- ASL accumulator, 0x0A (R185). -/
def execAslAcc (s : State) : Result := shiftA asl8 s

/-- ASL absolute, 0x0E (R185). -/
def execAslAbs (w : Addr) (s : State) : Result := shiftMem asl8 (.aslAbs w) s

/-- ASL zero page,X, 0x16 (R185). -/
def execAslZpX (z : Byte) (s : State) : Result := shiftMem asl8 (.aslZpX z) s

/-- ASL absolute,X, 0x1E (R185). -/
def execAslAbsX (w : Addr) (s : State) : Result := shiftMem asl8 (.aslAbsX w) s

/-- LSR zero page, 0x46 (R186). -/
def execLsrZp (z : Byte) (s : State) : Result := shiftMem lsr8 (.lsrZp z) s

/-- LSR accumulator, 0x4A (R186). -/
def execLsrAcc (s : State) : Result := shiftA lsr8 s

/-- LSR absolute, 0x4E (R186). -/
def execLsrAbs (w : Addr) (s : State) : Result := shiftMem lsr8 (.lsrAbs w) s

/-- LSR zero page,X, 0x56 (R186). -/
def execLsrZpX (z : Byte) (s : State) : Result := shiftMem lsr8 (.lsrZpX z) s

/-- LSR absolute,X, 0x5E (R186). -/
def execLsrAbsX (w : Addr) (s : State) : Result := shiftMem lsr8 (.lsrAbsX w) s

/-- ROL zero page, 0x26 (R187). -/
def execRolZp (z : Byte) (s : State) : Result := shiftMem rol8 (.rolZp z) s

/-- ROL accumulator, 0x2A (R187). -/
def execRolAcc (s : State) : Result := shiftA rol8 s

/-- ROL absolute, 0x2E (R187). -/
def execRolAbs (w : Addr) (s : State) : Result := shiftMem rol8 (.rolAbs w) s

/-- ROL zero page,X, 0x36 (R187). -/
def execRolZpX (z : Byte) (s : State) : Result := shiftMem rol8 (.rolZpX z) s

/-- ROL absolute,X, 0x3E (R187). -/
def execRolAbsX (w : Addr) (s : State) : Result := shiftMem rol8 (.rolAbsX w) s

/-- ROR zero page, 0x66 (R188). -/
def execRorZp (z : Byte) (s : State) : Result := shiftMem ror8 (.rorZp z) s

/-- ROR accumulator, 0x6A (R188). -/
def execRorAcc (s : State) : Result := shiftA ror8 s

/-- ROR absolute, 0x6E (R188). -/
def execRorAbs (w : Addr) (s : State) : Result := shiftMem ror8 (.rorAbs w) s

/-- ROR zero page,X, 0x76 (R188). -/
def execRorZpX (z : Byte) (s : State) : Result := shiftMem ror8 (.rorZpX z) s

/-- ROR absolute,X, 0x7E (R188). -/
def execRorAbsX (w : Addr) (s : State) : Result := shiftMem ror8 (.rorAbsX w) s

/-- INC zero page, 0xE6 (R189). -/
def execIncZp (z : Byte) (s : State) : Result := modifyMem inc8 (.incZp z) s

/-- INC absolute, 0xEE (R189). -/
def execIncAbs (w : Addr) (s : State) : Result := modifyMem inc8 (.incAbs w) s

/-- INC zero page,X, 0xF6 (R189). -/
def execIncZpX (z : Byte) (s : State) : Result := modifyMem inc8 (.incZpX z) s

/-- INC absolute,X, 0xFE (R189). -/
def execIncAbsX (w : Addr) (s : State) : Result := modifyMem inc8 (.incAbsX w) s

/-- DEC zero page, 0xC6 (R190). -/
def execDecZp (z : Byte) (s : State) : Result := modifyMem dec8 (.decZp z) s

/-- DEC absolute, 0xCE (R190). -/
def execDecAbs (w : Addr) (s : State) : Result := modifyMem dec8 (.decAbs w) s

/-- DEC zero page,X, 0xD6 (R190). -/
def execDecZpX (z : Byte) (s : State) : Result := modifyMem dec8 (.decZpX z) s

/-- DEC absolute,X, 0xDE (R190). -/
def execDecAbsX (w : Addr) (s : State) : Result := modifyMem dec8 (.decAbsX w) s

/-- INX implied, 0xE8 (R191). -/
def execInx (s : State) : Result := modifyReg inc8 .x s

/-- INY implied, 0xC8 (R192). -/
def execIny (s : State) : Result := modifyReg inc8 .y s

/-- DEX implied, 0xCA (R193). -/
def execDex (s : State) : Result := modifyReg dec8 .x s

/-- DEY implied, 0x88 (R194). -/
def execDey (s : State) : Result := modifyReg dec8 .y s

end Sys2Proof.Machine
end

