-- ==== Sys2Proof/Machine/Stack.lean ====
section
/-! DEFINITION. The stack instructions (44_stack.md R205 to R208), over the stack engine of Ops.lean in
either STACK_ORDER. None writes PC and none raises an exception. -/

namespace Sys2Proof.Machine

open Sys2Proof

/-- `A <- Pop8(); SetZN(A)` (R206). -/
def pullA (s : State) : State :=
  (s.pop8.2.set .a s.pop8.1).setZN s.pop8.1

/-- PHA implied, 0x48 (R205). -/
def execPha (s : State) : Result := .next (s.push8 s.a)

/-- PLA implied, 0x68 (R206). -/
def execPla (s : State) : Result := .next (pullA s)

/-- PHP implied, 0x08 (R207). -/
def execPhp (s : State) : Result := .next (s.push8 (s.p ||| 0x30))

/-- PLP implied, 0x28 (R208). -/
def execPlp (s : State) : Result := .next (s.pop8.2.loadStatus s.pop8.1)

end Sys2Proof.Machine
end

