-- ==== Sys2Proof/Machine/Fetch.lean ====
section
/-! DEFINITION. The parts of a step around the instruction's own rule (6502_fetch_unit: 40_fetch_decode.md
R100, R102, R106, R107): the fetch, the halt on an unknown opcode, and the PC advance in both values of
PC_COMPARE_ADVANCE. Step.lean only puts them together. -/

namespace Sys2Proof.Machine

open Sys2Proof

/-- The bytes the decoder is given: the opcode byte at PC and the two after it, modulo 65536 (R80, R100).
Reading has no side effect (R56), so reading a byte the instruction does not have changes nothing. -/
def State.fetchBytes (s : State) : List Byte :=
  [s.mem.read s.pc, s.mem.read (s.pc + 1), s.mem.read (s.pc + 2)]

/-- The state after the opcode fetch: `PC <- (PC + 1) mod 65536`, so that PC holds `pcb` (R100). -/
def State.fetched (s : State) : State := s.setPC (s.pc + 1)

/-- `raise UnimplementedOpcode(op, (pcb - 1) mod 65536)` on the byte at PC: only PC, left at `pcb`, and Run
change (R102, R270, R273). -/
def State.raiseUnimplemented (s : State) : State :=
  s.fetched.halt (.unimplementedOpcode (s.mem.read s.pc) s.pc)

/-- `(pcb + rec.len - 1) mod 65536`, one past the instruction's last byte (R106). -/
def nextAddr (i : Instr) (pcb : Addr) : Addr := pcb + BitVec.ofNat 16 (i.length - 1)

/-- The PC advance after an instruction rule that did not halt (R106, R107). -/
def advance (i : Instr) (pcb : Addr) (t : State) : State :=
  match t.run with
  | .halted _ => t
  | .running =>
    if t.cfg.pcCompareAdvance then
      if t.pc = pcb then t.setPC (nextAddr i pcb) else t
    else
      if i.isControlTransfer then t else t.setPC (nextAddr i pcb)

/-- What the step makes of the instruction rule's answer. -/
def complete (i : Instr) (pcb : Addr) : Result → Result
  | .next t => .next (advance i pcb t)
  | .fault r => .fault r
  | .refused r => .refused r

/-- A state whose very next step fetches these bytes: they stand at PC, and the loop runs, as after the
host's `poke` and `run` (R293, R295). -/
def State.placeAtFetch (s : State) (bytes : List Byte) : State :=
  (s.setMem (s.mem.writeBytes s.pc bytes)).setRun .running

end Sys2Proof.Machine
end

