-- ==== Sys2Proof/Machine/Step.lean ====
section
/-! DEFINITION. One step of the machine (40_fetch_decode.md R108): fetch, decode, execute, advance. -/

namespace Sys2Proof.Machine

open Sys2Proof

/-- `Step()` (R108). No step is taken from a halted state (R100); a byte without a record halts the machine
before anything else is examined (R102, R278). -/
def step (s : State) : Host.Outcome State Fault Refusal :=
  match s.run with
  | .halted c => .fault (.notRunning c)
  | .running =>
    match decode s.fetchBytes with
    | .error _ => .next s.raiseUnimplemented
    | .ok (i, _) => complete i s.fetched.pc (exec i s.fetched)

/-- `s` with the instruction of these bits stored where the next step fetches, and the loop running. -/
def State.withFetchWord (s : State) (nbits w : Nat) : State := s.placeAtFetch (wordBytes nbits w)

end Sys2Proof.Machine
end

