-- ==== Sys2Proof/Machine/Assembler.lean ====
section
/-! DEFINITION. The assembler's view of an instruction (30_encoding.md R88, R89): its text, and the offset
byte an assembler computes for a branch to a target. Nothing of the machine reads it. -/

namespace Sys2Proof.Machine

open Sys2Proof

/-- The mnemonic's letters (R84). -/
def mnemonicText : Mnemonic → String
  | .adc => "ADC" | .and => "AND" | .asl => "ASL" | .bcc => "BCC" | .bcs => "BCS" | .beq => "BEQ"
  | .bit => "BIT" | .bmi => "BMI" | .bne => "BNE" | .bpl => "BPL" | .brk => "BRK" | .bvc => "BVC"
  | .bvs => "BVS" | .clc => "CLC" | .cld => "CLD" | .cli => "CLI" | .clv => "CLV" | .cmp => "CMP"
  | .cpx => "CPX" | .cpy => "CPY" | .dec => "DEC" | .dex => "DEX" | .dey => "DEY" | .eor => "EOR"
  | .inc => "INC" | .inx => "INX" | .iny => "INY" | .jmp => "JMP" | .jsr => "JSR" | .lda => "LDA"
  | .ldx => "LDX" | .ldy => "LDY" | .lsr => "LSR" | .nop => "NOP" | .ora => "ORA" | .pha => "PHA"
  | .php => "PHP" | .pla => "PLA" | .plp => "PLP" | .rol => "ROL" | .ror => "ROR" | .rti => "RTI"
  | .rts => "RTS" | .sbc => "SBC" | .sec => "SEC" | .sed => "SED" | .sei => "SEI" | .sta => "STA"
  | .stx => "STX" | .sty => "STY" | .tax => "TAX" | .tay => "TAY" | .tsx => "TSX" | .txa => "TXA"
  | .txs => "TXS" | .tya => "TYA"

/-- A hexadecimal digit. -/
def hexDigit (n : Nat) : String :=
  match n with
  | 0 => "0" | 1 => "1" | 2 => "2" | 3 => "3" | 4 => "4" | 5 => "5" | 6 => "6" | 7 => "7"
  | 8 => "8" | 9 => "9" | 10 => "A" | 11 => "B" | 12 => "C" | 13 => "D" | 14 => "E" | _ => "F"

/-- `$nn` (R88). -/
def hexByte (b : Byte) : String := "$" ++ hexDigit (b.toNat / 16) ++ hexDigit (b.toNat % 16)

/-- `$nnnn` (R88). -/
def hexAddr (w : Addr) : String :=
  "$" ++ hexDigit (w.toNat / 4096) ++ hexDigit (w.toNat / 256 % 16) ++ hexDigit (w.toNat / 16 % 16) ++
    hexDigit (w.toNat % 16)

/-- The address a taken branch at `at_` with offset `o` continues at: `branch address + 2 + sext_16(o)`
(R89, R225). -/
def branchTarget (at_ : Addr) (o : Byte) : Addr := at_ + 2 + sext16 o

/-- The operand's text for an instruction at `at_`, which a relative operand's target depends on (R88). -/
def operandText (at_ : Addr) : Operand → String
  | .immediate i => " #" ++ hexByte i
  | .zeroPage z => " " ++ hexByte z
  | .zeroPageX z => " " ++ hexByte z ++ ",X"
  | .zeroPageY z => " " ++ hexByte z ++ ",Y"
  | .absolute w => " " ++ hexAddr w
  | .absoluteX w => " " ++ hexAddr w ++ ",X"
  | .absoluteY w => " " ++ hexAddr w ++ ",Y"
  | .indirectX z => " (" ++ hexByte z ++ ",X)"
  | .indirectY z => " (" ++ hexByte z ++ "),Y"
  | .accumulator => " A"
  | .implied => ""
  | .relative o => " " ++ hexAddr (branchTarget at_ o)
  | .indirect w => " (" ++ hexAddr w ++ ")"

/-- The assembler text of an instruction at an address (R88). -/
def assemblerText (at_ : Addr) (i : Instr) : String := mnemonicText i.mnemonic ++ operandText at_ i.operand

/-- The offset byte an assembler computes for a branch at `at_` to `target`,
`(target - (branch address + 2)) mod 256`, where the signed distance lies in -128..127 (R89). -/
def branchOffset (at_ target : Addr) : Option Byte :=
  let distance := (target - (at_ + 2)).toInt
  if -128 ≤ distance ∧ distance ≤ 127 then some (BitVec.ofInt 8 distance) else none

end Sys2Proof.Machine
end

