-- ==== Sys2Proof/WellFormed.lean ====
section
/-! DEFINITION. Well-formedness. The operand bytes of a legal instruction "take every value 0x00-0xFF without
restriction; no operand value is reserved" (30_encoding.md R87), and Instr's fields have exactly those widths: so
the checks are on the opcode table's records (R81, R85), on an instruction's agreement with its record (R84),
and on a program image (70_reset_and_hazards.md R291). -/

namespace Sys2Proof

/-- A record's format and AddressingMode follow from its assembler mode (R81, R85). -/
def OpRecord.wellFormed (r : OpRecord) : Bool := r.mode == r.asm.mode && r.length == r.asm.length

/-- The instruction has a record, well formed, that names its mnemonic and its form (R84). By R87 nothing
else is asked of it: `Laws.OpTableRow` proves that every instruction passes. -/
def Instr.wellFormed (i : Instr) : Bool :=
  match lookup i.opcode with
  | none => false
  | some r => r.wellFormed && r.mnemonic == i.mnemonic && r.asm == i.operand.asm

/-- The precondition of the host operation `load`: `len(bytes) <= 0x7FFF` (R291, U3). -/
def imageFits (bytes : List Byte) : Bool := decide (bytes.length ≤ 0x7FFF)

end Sys2Proof
end

