-- ==== Sys2Proof/Machine/HostOps.lean ====
section
/-! DEFINITION. The host operations (70_reset_and_hazards.md R290 to R296), by which the environment drives
the core between runs (00_scope.md R6), and the execution loop under fuel (40_fetch_decode.md R109).
`State.construct` (R290) is in State.lean. -/

namespace Sys2Proof.Machine

open Sys2Proof

/-- The program load origin (R7, R58). -/
def loadOrigin : Addr := 0x8000

/-- The address of the reset vector's low byte (R7, R58). -/
def resetVector : Addr := 0xFFFC

/-- `load(bytes)`: the image from 0x8000, then the vector, so that the vector wins where they meet; refused
beyond its precondition (R291, D21). -/
def hostLoad (bytes : List Byte) (s : State) : Result :=
  if imageFits bytes then
    .next (s.setMem ((s.mem.writeBytes loadOrigin bytes).write16 resetVector loadOrigin))
  else
    .refused (.imageTooLong bytes.length)

/-- `reset()`: Mem and Run are unchanged (R41, R292, D4, D13). -/
def hostReset (s : State) : State :=
  (((((s.set .a 0).set .x 0).set .y 0).setP 0x20).set .sp 0xFD).setPC (s.mem.read16 resetVector)

/-- `peek(addr)` (R295). -/
def hostPeek (s : State) (a : Addr) : Byte := s.mem.read a

/-- `poke(addr, value)` (R295). -/
def hostPoke (s : State) (a : Addr) (v : Byte) : State := s.store a v

/-- The loop: steps while `Run = Running`, at most `fuel` of them (R109, D26). -/
def runLoop (fuel : Nat) (s : State) : RunResult :=
  match s.run with
  | .halted c => .finished c s
  | .running =>
    match fuel with
    | 0 => .notFinished s
    | n + 1 =>
      match step s with
      | .next t => runLoop n t
      | .fault _ => .notFinished s
      | .refused r => .rejected r s

/-- `run()`: `Run <- Running`, then the loop from the current PC; it does not reset (R293). -/
def hostRun (fuel : Nat) (s : State) : RunResult := runLoop fuel (s.setRun .running)

/-- `load_and_run(bytes)` and `interpret(bytes)`: load, reset, run (R294). -/
def loadAndRun (bytes : List Byte) (fuel : Nat) (s : State) : RunResult :=
  match hostLoad bytes s with
  | .next t => hostRun fuel (hostReset t)
  | .fault _ => .notFinished s
  | .refused r => .rejected r s

end Sys2Proof.Machine
end

