-- ==== Sys2Proof/Safety.lean ====
section
/-! DEFINITION. What counts as a safe state and a safe run, in the terms the statements use. -/

namespace Sys2Proof.Machine

open Sys2Proof

/-- A halt that is a fault: one of the two fatal conditions (R270, R271). `Brk` is a normal end (R272). -/
def HaltCause.isFault : HaltCause → Bool
  | .notStarted => false
  | .brk => false
  | .unimplementedOpcode _ _ => true
  | .invalidAddressingRequest _ _ => true

/-- The invariant of plain data: memory is in its canonical form. -/
def State.wf (s : State) : Bool := s.mem.wf

/-- What a state keeps once reset has run: P.U reads 1 and P.B reads 0 (R32, R33). -/
def State.statusConvention (s : State) : Bool := s.flag .u && !s.flag .b

/-- A run that ended as the source's programs do, with BRK (R272, R298). -/
def RunResult.normalEnd : RunResult → Bool
  | .finished .brk _ => true
  | .finished .notStarted _ => false
  | .finished (.unimplementedOpcode _ _) _ => false
  | .finished (.invalidAddressingRequest _ _) _ => false
  | .notFinished _ => false
  | .rejected _ _ => false

/-- A run that ended in one of the two fatal conditions. -/
def RunResult.faulted : RunResult → Bool
  | .finished c _ => c.isFault
  | .notFinished _ => false
  | .rejected _ _ => false

end Sys2Proof.Machine
end

