-- ==== Sys2Proof/Certificates/Slice0/Obligations.lean ====
section
/-! DEFINITION. The statements for the provers. They speak of P by bit number (10_state.md R27), of addresses
as numbers, and of the bytes of each instruction as the opcode table prints them, so that they do not repeat the
model's own definitions of flags, addressing modes and encodings. Every statement holds for both values of both
parameters of 00_scope.md R7 unless it names one. Where the spec marks part of a rule as its own decision, the
statement's text names the decision D<n> (92_eei_decisions.md). -/

namespace Sys2Proof.Claims

open Sys2Proof Sys2Proof.Machine

/-! ### Words for the statements -/

/-- The places of the flags in P (R27). -/
abbrev bitC : Nat := 0
abbrev bitZ : Nat := 1
abbrev bitI : Nat := 2
abbrev bitD : Nat := 3
abbrev bitB : Nat := 4
abbrev bitU : Nat := 5
abbrev bitV : Nat := 6
abbrev bitN : Nat := 7

/-- Bit `k` of P. -/
def bit (s : State) (k : Nat) : Bool := s.p.getLsbD k

/-- Every bit of P but those written is as before. -/
def Kept (s t : State) (written : List Nat) : Prop := ∀ k, k < 8 → k ∉ written → bit t k = bit s k

/-- Z and N of `t` are those of the result `v` (R150). -/
def ZN (t : State) (v : Byte) : Prop := (bit t bitZ = true ↔ v.toNat = 0) ∧ (bit t bitN = true ↔ 128 ≤ v.toNat)

/-- The carry as a number. -/
def carryIn (s : State) : Nat := if bit s bitC then 1 else 0

/-- These bytes are the instruction `i` and no more, and `i` completes from `s` in a state with `Q`. -/
def Runs (bytes : List Byte) (i : Instr) (s : State) (Q : State → Prop) : Prop :=
  decode bytes = .ok (i, []) ∧ ∃ t, exec i s = .next t ∧ Q t

/-- The byte of memory at a number modulo 65536. -/
def rd (s : State) (n : Nat) : Byte := s.mem.read (BitVec.ofNat 16 n)

/-- Memory of `t` is that of `s` but for the byte `v` at address `n`. -/
def Stored (s t : State) (n : Nat) (v : Byte) : Prop :=
  ∀ a : Addr, t.mem.read a = if a = BitVec.ofNat 16 n then v else s.mem.read a

/-- The low and the high byte of an address. -/
def lo (w : Addr) : Byte := BitVec.ofNat 8 w.toNat
def hi (w : Addr) : Byte := BitVec.ofNat 8 (w.toNat / 256)

/-- The word at a zero-page pointer, wrapping inside the zero page (R52). -/
def zpWord (s : State) (p : Nat) : Nat := (rd s ((p + 1) % 256)).toNat * 256 + (rd s (p % 256)).toNat

/-- An operand form: the instruction, its bytes and its effective address (R61 to R69), for every operand. -/
def zpForm (op : Byte) (make : Byte → Instr) (E : Instr → List Byte → Nat → Prop) : Prop :=
  ∀ z : Byte, E (make z) [op, z] z.toNat
def zpXForm (s : State) (op : Byte) (make : Byte → Instr) (E : Instr → List Byte → Nat → Prop) : Prop :=
  ∀ z : Byte, E (make z) [op, z] ((z.toNat + s.x.toNat) % 256)
def zpYForm (s : State) (op : Byte) (make : Byte → Instr) (E : Instr → List Byte → Nat → Prop) : Prop :=
  ∀ z : Byte, E (make z) [op, z] ((z.toNat + s.y.toNat) % 256)
def absForm (op : Byte) (make : Addr → Instr) (E : Instr → List Byte → Nat → Prop) : Prop :=
  ∀ w : Addr, E (make w) [op, lo w, hi w] w.toNat
def absXForm (s : State) (op : Byte) (make : Addr → Instr) (E : Instr → List Byte → Nat → Prop) : Prop :=
  ∀ w : Addr, E (make w) [op, lo w, hi w] ((w.toNat + s.x.toNat) % 65536)
def absYForm (s : State) (op : Byte) (make : Addr → Instr) (E : Instr → List Byte → Nat → Prop) : Prop :=
  ∀ w : Addr, E (make w) [op, lo w, hi w] ((w.toNat + s.y.toNat) % 65536)
def indXForm (s : State) (op : Byte) (make : Byte → Instr) (E : Instr → List Byte → Nat → Prop) : Prop :=
  ∀ z : Byte, E (make z) [op, z] (zpWord s ((z.toNat + s.x.toNat) % 256))
def indYForm (s : State) (op : Byte) (make : Byte → Instr) (E : Instr → List Byte → Nat → Prop) : Prop :=
  ∀ z : Byte, E (make z) [op, z] ((zpWord s z.toNat + s.y.toNat) % 65536)

/-- An effect stated of the operand byte, as one stated of the effective address. -/
def ofByte (s : State) (E : Instr → List Byte → Byte → Prop) : Instr → List Byte → Nat → Prop :=
  fun i bytes ea => E i bytes (rd s ea)

/-- Where the `k`th byte pushed from `s` lands, `k = 0` the first (R200, R204). -/
def pushedAt (s : State) (k : Nat) : Nat :=
  match s.cfg.stackOrder with
  | .decThenWrite => 0x0100 + (s.sp.toNat + 255 - k) % 256
  | .writeThenDec => 0x0100 + (s.sp.toNat + 256 - k) % 256

/-- Where the `k`th byte pulled from `s` stands, `k = 0` the first (R201, R204). -/
def pulledAt (s : State) (k : Nat) : Nat :=
  match s.cfg.stackOrder with
  | .decThenWrite => 0x0100 + (s.sp.toNat + k) % 256
  | .writeThenDec => 0x0100 + (s.sp.toNat + k + 1) % 256

/-- The value of a word pulled from `s` after `k` bytes, low byte first (R203). -/
def pulledWord (s : State) (k : Nat) : Nat :=
  (rd s (pulledAt s (k + 1))).toNat * 256 + (rd s (pulledAt s k)).toNat

/-- The three bytes at and after PC. -/
def bytesAtPC (s : State) : List Byte := [s.mem.read s.pc, s.mem.read (s.pc + 1), s.mem.read (s.pc + 2)]

/-- The 105 illegal opcode bytes as R86 lists them. -/
def illegalBytes : List Byte :=
  [0x02, 0x03, 0x04, 0x07, 0x0B, 0x0C, 0x0F, 0x12, 0x13, 0x14, 0x17, 0x1A, 0x1B, 0x1C, 0x1F, 0x22, 0x23, 0x27,
   0x2B, 0x2F, 0x32, 0x33, 0x34, 0x37, 0x3A, 0x3B, 0x3C, 0x3F, 0x42, 0x43, 0x44, 0x47, 0x4B, 0x4F, 0x52, 0x53] ++
  [0x54, 0x57, 0x5A, 0x5B, 0x5C, 0x5F, 0x62, 0x63, 0x64, 0x67, 0x6B, 0x6F, 0x72, 0x73, 0x74, 0x77, 0x7A, 0x7B,
   0x7C, 0x7F, 0x80, 0x82, 0x83, 0x87, 0x89, 0x8B, 0x8F, 0x92, 0x93, 0x97, 0x9B, 0x9C, 0x9E, 0x9F, 0xA3, 0xA7] ++
  [0xAB, 0xAF, 0xB2, 0xB3, 0xB7, 0xBB, 0xBF, 0xC2, 0xC3, 0xC7, 0xCB, 0xCF, 0xD2, 0xD3, 0xD4, 0xD7, 0xDA, 0xDB,
   0xDC, 0xDF, 0xE2, 0xE3, 0xE7, 0xEB, 0xEF, 0xF2, 0xF3, 0xF4, 0xF7, 0xFA, 0xFB, 0xFC, 0xFF]

/-- The control-transfer mnemonics as R105 lists them. -/
def controlTransfers : List Mnemonic :=
  [.jmp, .jsr, .rts, .rti, .bcc, .bcs, .beq, .bne, .bmi, .bpl, .bvc, .bvs]

/-- The effect of ADC on the byte `m`; SBC's on `255 - m` is the same (R151, R160, R153, R161). -/
def AddsToA (s : State) (bytes : List Byte) (i : Instr) (m : Nat) : Prop :=
  Runs bytes i s fun t =>
    let sum := s.a.toNat + m + carryIn s
    t = { s with a := t.a, p := t.p } ∧ t.a.toNat = sum % 256 ∧ (bit t bitC = true ↔ 255 < sum) ∧
      (bit t bitV = true ↔ (s.a.toNat ^^^ sum) &&& (m ^^^ sum) &&& 0x80 ≠ 0) ∧ ZN t t.a ∧
      Kept s t [bitC, bitV, bitZ, bitN]

/-- The effect of a logical operation with result `r` (R154). -/
def PutsInA (s : State) (bytes : List Byte) (i : Instr) (r : Byte) : Prop :=
  Runs bytes i s fun t => t = { s with a := r, p := t.p } ∧ ZN t r ∧ Kept s t [bitZ, bitN]

/-- The effect of a compare of the register value `v` with the byte `m` (R155). -/
def Compares (s : State) (bytes : List Byte) (i : Instr) (v m : Byte) : Prop :=
  Runs bytes i s fun t =>
    t = { s with p := t.p } ∧ (bit t bitC = true ↔ m.toNat ≤ v.toNat) ∧
      ZN t (BitVec.ofNat 8 (v.toNat + 256 - m.toNat)) ∧ Kept s t [bitC, bitZ, bitN]

/-- The effect of a shift of A to `r`, with the bit shifted out (R185 to R188). -/
def ShiftsA (s : State) (bytes : List Byte) (i : Instr) (r : Nat) (out : Prop) : Prop :=
  Runs bytes i s fun t =>
    t = { s with a := t.a, p := t.p } ∧ t.a.toNat = r ∧ (bit t bitC = true ↔ out) ∧ ZN t t.a ∧
      Kept s t [bitC, bitZ, bitN]

/-- The effect of a shift of the byte at `ea` to `r`, with the bit shifted out (R185 to R188). -/
def ShiftsMem (s : State) (bytes : List Byte) (i : Instr) (ea r : Nat) (out : Prop) : Prop :=
  Runs bytes i s fun t =>
    t = { s with mem := t.mem, p := t.p } ∧ Stored s t ea (BitVec.ofNat 8 r) ∧ (bit t bitC = true ↔ out) ∧
      ZN t (BitVec.ofNat 8 r) ∧ Kept s t [bitC, bitZ, bitN]

/-- The effect of INC and DEC: the byte at `ea` becomes `r` (R189, R190). -/
def Modifies (s : State) (bytes : List Byte) (i : Instr) (ea r : Nat) : Prop :=
  Runs bytes i s fun t =>
    t = { s with mem := t.mem, p := t.p } ∧ Stored s t ea (BitVec.ofNat 8 r) ∧ ZN t (BitVec.ofNat 8 r) ∧
      Kept s t [bitZ, bitN]

/-- The effect of pushing one byte (R200, R204, R205). -/
def Pushes (s : State) (bytes : List Byte) (i : Instr) (v : Byte) : Prop :=
  Runs bytes i s fun t =>
    t = { s with sp := t.sp, mem := t.mem } ∧ t.sp.toNat = (s.sp.toNat + 255) % 256 ∧
      Stored s t (pushedAt s 0) v

/-- A branch taken when `cond` holds, from PC holding `pcb` (R225). -/
def Branches (s : State) (op : Byte) (make : Byte → Instr) (cond : Prop) : Prop :=
  ∀ o : Byte, Runs [op, o] (make o) s fun t =>
    t = { s with pc := t.pc } ∧ (cond → t.pc = BitVec.ofInt 16 (s.pc.toNat + 1 + o.toInt)) ∧
      (¬cond → t.pc.toNat = (s.pc.toNat + 1) % 65536)

/-- A flag instruction: one bit of P becomes `b` and nothing else changes. -/
def WritesFlag (s : State) (op : Byte) (i : Instr) (k : Nat) (b : Bool) : Prop :=
  Runs [op] i s fun t => t = { s with p := t.p } ∧ bit t k = b ∧ Kept s t [k]

end Sys2Proof.Claims

open Sys2Proof Sys2Proof.Machine Sys2Proof.Claims

/-! ### Loads, stores and transfers -/

/-- R130: LDA, all eight forms. -/
def Obligations.LdaLoadsItsOperand : Prop :=
  ∀ s : State,
    let effect := fun (i : Instr) (bytes : List Byte) (m : Byte) =>
      Runs bytes i s fun t => t = { s with a := m, p := t.p } ∧ ZN t m ∧ Kept s t [bitZ, bitN]
    (∀ v : Byte, effect (.ldaImm v) [0xA9, v] v) ∧
    zpForm 0xA5 .ldaZp (ofByte s effect) ∧ zpXForm s 0xB5 .ldaZpX (ofByte s effect) ∧
    absForm 0xAD .ldaAbs (ofByte s effect) ∧ absXForm s 0xBD .ldaAbsX (ofByte s effect) ∧
    absYForm s 0xB9 .ldaAbsY (ofByte s effect) ∧ indXForm s 0xA1 .ldaIndX (ofByte s effect) ∧
    indYForm s 0xB1 .ldaIndY (ofByte s effect)

/-- R131 and R132: LDX and LDY, five forms each; LDX indexes by Y and LDY by X. -/
def Obligations.LdxAndLdyLoadTheirOperand : Prop :=
  ∀ s : State,
    let loadX := fun (i : Instr) (bytes : List Byte) (m : Byte) =>
      Runs bytes i s fun t => t = { s with x := m, p := t.p } ∧ ZN t m ∧ Kept s t [bitZ, bitN]
    let loadY := fun (i : Instr) (bytes : List Byte) (m : Byte) =>
      Runs bytes i s fun t => t = { s with y := m, p := t.p } ∧ ZN t m ∧ Kept s t [bitZ, bitN]
    (∀ v : Byte, loadX (.ldxImm v) [0xA2, v] v) ∧
    zpForm 0xA6 .ldxZp (ofByte s loadX) ∧ zpYForm s 0xB6 .ldxZpY (ofByte s loadX) ∧
    absForm 0xAE .ldxAbs (ofByte s loadX) ∧ absYForm s 0xBE .ldxAbsY (ofByte s loadX) ∧
    (∀ v : Byte, loadY (.ldyImm v) [0xA0, v] v) ∧
    zpForm 0xA4 .ldyZp (ofByte s loadY) ∧ zpXForm s 0xB4 .ldyZpX (ofByte s loadY) ∧
    absForm 0xAC .ldyAbs (ofByte s loadY) ∧ absXForm s 0xBC .ldyAbsX (ofByte s loadY)

/-- R133: STA, all seven forms; one byte of memory and nothing else changes. -/
def Obligations.StaStoresA : Prop :=
  ∀ s : State,
    let effect := fun (i : Instr) (bytes : List Byte) (ea : Nat) =>
      Runs bytes i s fun t => t = { s with mem := t.mem } ∧ Stored s t ea s.a
    zpForm 0x85 .staZp effect ∧ zpXForm s 0x95 .staZpX effect ∧ absForm 0x8D .staAbs effect ∧
    absXForm s 0x9D .staAbsX effect ∧ absYForm s 0x99 .staAbsY effect ∧ indXForm s 0x81 .staIndX effect ∧
    indYForm s 0x91 .staIndY effect

/-- R134 and R135: STX and STY, three forms each; STX indexes by Y and STY by X. -/
def Obligations.StxAndStyStoreTheirRegister : Prop :=
  ∀ s : State,
    let storeX := fun (i : Instr) (bytes : List Byte) (ea : Nat) =>
      Runs bytes i s fun t => t = { s with mem := t.mem } ∧ Stored s t ea s.x
    let storeY := fun (i : Instr) (bytes : List Byte) (ea : Nat) =>
      Runs bytes i s fun t => t = { s with mem := t.mem } ∧ Stored s t ea s.y
    zpForm 0x86 .stxZp storeX ∧ zpYForm s 0x96 .stxZpY storeX ∧ absForm 0x8E .stxAbs storeX ∧
    zpForm 0x84 .styZp storeY ∧ zpXForm s 0x94 .styZpX storeY ∧ absForm 0x8C .styAbs storeY

/-- R136 to R141: the six transfers; TXS alone writes no flag. -/
def Obligations.TransfersCopyARegister : Prop :=
  ∀ s : State,
    (Runs [0xAA] .tax s fun t => t = { s with x := s.a, p := t.p } ∧ ZN t s.a ∧ Kept s t [bitZ, bitN]) ∧
    (Runs [0xA8] .tay s fun t => t = { s with y := s.a, p := t.p } ∧ ZN t s.a ∧ Kept s t [bitZ, bitN]) ∧
    (Runs [0x8A] .txa s fun t => t = { s with a := s.x, p := t.p } ∧ ZN t s.x ∧ Kept s t [bitZ, bitN]) ∧
    (Runs [0x98] .tya s fun t => t = { s with a := s.y, p := t.p } ∧ ZN t s.y ∧ Kept s t [bitZ, bitN]) ∧
    (Runs [0xBA] .tsx s fun t => t = { s with x := s.sp, p := t.p } ∧ ZN t s.sp ∧ Kept s t [bitZ, bitN]) ∧
    (Runs [0x9A] .txs s fun t => t = { s with sp := s.x })

/-! ### Arithmetic, logic, compare and bit test -/

/-- R160: ADC, all eight forms, for every value of P.D. -/
def Obligations.AdcAddsWithCarry : Prop :=
  ∀ s : State,
    let effect := fun (i : Instr) (bytes : List Byte) (m : Byte) => AddsToA s bytes i m.toNat
    (∀ v : Byte, effect (.adcImm v) [0x69, v] v) ∧
    zpForm 0x65 .adcZp (ofByte s effect) ∧ zpXForm s 0x75 .adcZpX (ofByte s effect) ∧
    absForm 0x6D .adcAbs (ofByte s effect) ∧ absXForm s 0x7D .adcAbsX (ofByte s effect) ∧
    absYForm s 0x79 .adcAbsY (ofByte s effect) ∧ indXForm s 0x61 .adcIndX (ofByte s effect) ∧
    indYForm s 0x71 .adcIndY (ofByte s effect)

/-- R161: SBC, all eight forms, for every value of P.D: ADC of `255 - M`. -/
def Obligations.SbcAddsTheComplement : Prop :=
  ∀ s : State,
    let effect := fun (i : Instr) (bytes : List Byte) (m : Byte) => AddsToA s bytes i (255 - m.toNat)
    (∀ v : Byte, effect (.sbcImm v) [0xE9, v] v) ∧
    zpForm 0xE5 .sbcZp (ofByte s effect) ∧ zpXForm s 0xF5 .sbcZpX (ofByte s effect) ∧
    absForm 0xED .sbcAbs (ofByte s effect) ∧ absXForm s 0xFD .sbcAbsX (ofByte s effect) ∧
    absYForm s 0xF9 .sbcAbsY (ofByte s effect) ∧ indXForm s 0xE1 .sbcIndX (ofByte s effect) ∧
    indYForm s 0xF1 .sbcIndY (ofByte s effect)

/-- R151, R153, R168 read on signed numbers, for the immediate forms: V says that the exact signed result leaves
-128..127, SBC's result is `A - M - (1 - C)` modulo 256, and its C says that no borrow occurred. -/
def Obligations.OverflowAndBorrowAreSigned : Prop :=
  ∀ (s : State) (m : Byte),
    (∃ t, exec (.adcImm m) s = .next t ∧
      (bit t bitV = true ↔ s.a.toInt + m.toInt + carryIn s < -128 ∨ 127 < s.a.toInt + m.toInt + carryIn s)) ∧
    (∃ t, exec (.sbcImm m) s = .next t ∧
      (bit t bitV = true ↔
        s.a.toInt - m.toInt - (1 - (carryIn s : Int)) < -128 ∨ 127 < s.a.toInt - m.toInt - (1 - (carryIn s : Int))) ∧
      t.a.toNat = (s.a.toNat + 255 + carryIn s - m.toNat) % 256 ∧
      (bit t bitC = true ↔ m.toNat + 1 ≤ s.a.toNat + carryIn s))

/-- R162, R163, R164: AND, ORA, EOR, all eight forms each. -/
def Obligations.LogicCombinesIntoA : Prop :=
  ∀ s : State,
    let conj := fun (i : Instr) (bytes : List Byte) (m : Byte) => PutsInA s bytes i (s.a &&& m)
    let disj := fun (i : Instr) (bytes : List Byte) (m : Byte) => PutsInA s bytes i (s.a ||| m)
    let excl := fun (i : Instr) (bytes : List Byte) (m : Byte) => PutsInA s bytes i (s.a ^^^ m)
    ((∀ v : Byte, conj (.andImm v) [0x29, v] v) ∧
      zpForm 0x25 .andZp (ofByte s conj) ∧ zpXForm s 0x35 .andZpX (ofByte s conj) ∧
      absForm 0x2D .andAbs (ofByte s conj) ∧ absXForm s 0x3D .andAbsX (ofByte s conj) ∧
      absYForm s 0x39 .andAbsY (ofByte s conj) ∧ indXForm s 0x21 .andIndX (ofByte s conj) ∧
      indYForm s 0x31 .andIndY (ofByte s conj)) ∧
    ((∀ v : Byte, disj (.oraImm v) [0x09, v] v) ∧
      zpForm 0x05 .oraZp (ofByte s disj) ∧ zpXForm s 0x15 .oraZpX (ofByte s disj) ∧
      absForm 0x0D .oraAbs (ofByte s disj) ∧ absXForm s 0x1D .oraAbsX (ofByte s disj) ∧
      absYForm s 0x19 .oraAbsY (ofByte s disj) ∧ indXForm s 0x01 .oraIndX (ofByte s disj) ∧
      indYForm s 0x11 .oraIndY (ofByte s disj)) ∧
    ((∀ v : Byte, excl (.eorImm v) [0x49, v] v) ∧
      zpForm 0x45 .eorZp (ofByte s excl) ∧ zpXForm s 0x55 .eorZpX (ofByte s excl) ∧
      absForm 0x4D .eorAbs (ofByte s excl) ∧ absXForm s 0x5D .eorAbsX (ofByte s excl) ∧
      absYForm s 0x59 .eorAbsY (ofByte s excl) ∧ indXForm s 0x41 .eorIndX (ofByte s excl) ∧
      indYForm s 0x51 .eorIndY (ofByte s excl))

/-- R165, R166, R167: CMP in eight forms, CPX and CPY in three each. -/
def Obligations.ComparesSetCarryZeroNegative : Prop :=
  ∀ s : State,
    let cmp := fun (i : Instr) (bytes : List Byte) (m : Byte) => Compares s bytes i s.a m
    let cpx := fun (i : Instr) (bytes : List Byte) (m : Byte) => Compares s bytes i s.x m
    let cpy := fun (i : Instr) (bytes : List Byte) (m : Byte) => Compares s bytes i s.y m
    ((∀ v : Byte, cmp (.cmpImm v) [0xC9, v] v) ∧
      zpForm 0xC5 .cmpZp (ofByte s cmp) ∧ zpXForm s 0xD5 .cmpZpX (ofByte s cmp) ∧
      absForm 0xCD .cmpAbs (ofByte s cmp) ∧ absXForm s 0xDD .cmpAbsX (ofByte s cmp) ∧
      absYForm s 0xD9 .cmpAbsY (ofByte s cmp) ∧ indXForm s 0xC1 .cmpIndX (ofByte s cmp) ∧
      indYForm s 0xD1 .cmpIndY (ofByte s cmp)) ∧
    ((∀ v : Byte, cpx (.cpxImm v) [0xE0, v] v) ∧ zpForm 0xE4 .cpxZp (ofByte s cpx) ∧
      absForm 0xEC .cpxAbs (ofByte s cpx)) ∧
    ((∀ v : Byte, cpy (.cpyImm v) [0xC0, v] v) ∧ zpForm 0xC4 .cpyZp (ofByte s cpy) ∧
      absForm 0xCC .cpyAbs (ofByte s cpy))

/-- R169: BIT, both forms. -/
def Obligations.BitTestsTheOperand : Prop :=
  ∀ s : State,
    let effect := fun (i : Instr) (bytes : List Byte) (m : Byte) =>
      Runs bytes i s fun t =>
        t = { s with p := t.p } ∧ (bit t bitZ = true ↔ s.a.toNat &&& m.toNat = 0) ∧
          (bit t bitN = true ↔ 128 ≤ m.toNat) ∧ (bit t bitV = true ↔ 64 ≤ m.toNat % 128) ∧
          Kept s t [bitZ, bitN, bitV]
    zpForm 0x24 .bitZp (ofByte s effect) ∧ absForm 0x2C .bitAbs (ofByte s effect)

/-! ### Shifts, rotates, increments and decrements -/

/-- R185 and R186: ASL and LSR, all five forms each. -/
def Obligations.AslAndLsrShift : Prop :=
  ∀ s : State,
    let asl := fun (i : Instr) (bytes : List Byte) (ea : Nat) =>
      ShiftsMem s bytes i ea ((rd s ea).toNat * 2 % 256) (128 ≤ (rd s ea).toNat)
    let lsr := fun (i : Instr) (bytes : List Byte) (ea : Nat) =>
      ShiftsMem s bytes i ea ((rd s ea).toNat / 2) ((rd s ea).toNat % 2 = 1)
    (ShiftsA s [0x0A] .aslAcc (s.a.toNat * 2 % 256) (128 ≤ s.a.toNat) ∧
      zpForm 0x06 .aslZp asl ∧ zpXForm s 0x16 .aslZpX asl ∧ absForm 0x0E .aslAbs asl ∧
      absXForm s 0x1E .aslAbsX asl) ∧
    (ShiftsA s [0x4A] .lsrAcc (s.a.toNat / 2) (s.a.toNat % 2 = 1) ∧
      zpForm 0x46 .lsrZp lsr ∧ zpXForm s 0x56 .lsrZpX lsr ∧ absForm 0x4E .lsrAbs lsr ∧
      absXForm s 0x5E .lsrAbsX lsr)

/-- R187 and R188: ROL and ROR, all five forms each; the old carry enters the vacated bit. -/
def Obligations.RolAndRorRotateThroughCarry : Prop :=
  ∀ s : State,
    let rol := fun (i : Instr) (bytes : List Byte) (ea : Nat) =>
      ShiftsMem s bytes i ea ((rd s ea).toNat * 2 % 256 + carryIn s) (128 ≤ (rd s ea).toNat)
    let ror := fun (i : Instr) (bytes : List Byte) (ea : Nat) =>
      ShiftsMem s bytes i ea ((rd s ea).toNat / 2 + 128 * carryIn s) ((rd s ea).toNat % 2 = 1)
    (ShiftsA s [0x2A] .rolAcc (s.a.toNat * 2 % 256 + carryIn s) (128 ≤ s.a.toNat) ∧
      zpForm 0x26 .rolZp rol ∧ zpXForm s 0x36 .rolZpX rol ∧ absForm 0x2E .rolAbs rol ∧
      absXForm s 0x3E .rolAbsX rol) ∧
    (ShiftsA s [0x6A] .rorAcc (s.a.toNat / 2 + 128 * carryIn s) (s.a.toNat % 2 = 1) ∧
      zpForm 0x66 .rorZp ror ∧ zpXForm s 0x76 .rorZpX ror ∧ absForm 0x6E .rorAbs ror ∧
      absXForm s 0x7E .rorAbsX ror)

/-- R189 and R190: INC and DEC, all four forms each; C and V are kept. -/
def Obligations.IncAndDecModifyMemory : Prop :=
  ∀ s : State,
    let inc := fun (i : Instr) (bytes : List Byte) (ea : Nat) =>
      Modifies s bytes i ea (((rd s ea).toNat + 1) % 256)
    let dec := fun (i : Instr) (bytes : List Byte) (ea : Nat) =>
      Modifies s bytes i ea (((rd s ea).toNat + 255) % 256)
    (zpForm 0xE6 .incZp inc ∧ zpXForm s 0xF6 .incZpX inc ∧ absForm 0xEE .incAbs inc ∧
      absXForm s 0xFE .incAbsX inc) ∧
    (zpForm 0xC6 .decZp dec ∧ zpXForm s 0xD6 .decZpX dec ∧ absForm 0xCE .decAbs dec ∧
      absXForm s 0xDE .decAbsX dec)

/-- R191 to R194: INX, INY, DEX, DEY. -/
def Obligations.IndexRegistersCount : Prop :=
  ∀ s : State,
    (Runs [0xE8] .inx s fun t => t = { s with x := t.x, p := t.p } ∧ t.x.toNat = (s.x.toNat + 1) % 256 ∧
      ZN t t.x ∧ Kept s t [bitZ, bitN]) ∧
    (Runs [0xC8] .iny s fun t => t = { s with y := t.y, p := t.p } ∧ t.y.toNat = (s.y.toNat + 1) % 256 ∧
      ZN t t.y ∧ Kept s t [bitZ, bitN]) ∧
    (Runs [0xCA] .dex s fun t => t = { s with x := t.x, p := t.p } ∧ t.x.toNat = (s.x.toNat + 255) % 256 ∧
      ZN t t.x ∧ Kept s t [bitZ, bitN]) ∧
    (Runs [0x88] .dey s fun t => t = { s with y := t.y, p := t.p } ∧ t.y.toNat = (s.y.toNat + 255) % 256 ∧
      ZN t t.y ∧ Kept s t [bitZ, bitN])

/-! ### Stack -/

/-- R205: PHA, in both stack orders. -/
def Obligations.PhaPushesA : Prop := ∀ s : State, Pushes s [0x48] .pha s.a

/-- R206: PLA, in both stack orders; the pulled byte stays in memory. -/
def Obligations.PlaPullsA : Prop :=
  ∀ s : State, Runs [0x68] .pla s fun t =>
    t = { s with a := rd s (pulledAt s 0), sp := t.sp, p := t.p } ∧ t.sp.toNat = (s.sp.toNat + 1) % 256 ∧
      ZN t (rd s (pulledAt s 0)) ∧ Kept s t [bitZ, bitN]

/-- R207: PHP, in both stack orders: the byte pushed has bits 4 and 5 set whatever P holds, and P is kept. -/
def Obligations.PhpPushesStatusWithBreak : Prop :=
  ∀ s : State, ∃ v : Byte, Pushes s [0x08] .php v ∧
    ∀ k, k < 8 → v.getLsbD k = if k = bitB ∨ k = bitU then true else bit s k

/-- R208: PLP, in both stack orders: all of P is written, bit 4 cleared and bit 5 set (the spec's
decision D5). -/
def Obligations.PlpRestoresStatus : Prop :=
  ∀ s : State, Runs [0x28] .plp s fun t =>
    t = { s with sp := t.sp, p := t.p } ∧ t.sp.toNat = (s.sp.toNat + 1) % 256 ∧
      ∀ k, k < 8 → bit t k =
        if k = bitB then false else if k = bitU then true else (rd s (pulledAt s 0)).getLsbD k

/-- R201 and R203 in both stack orders: a pull after a push returns what was pushed and restores SP; the
memory a push of two bytes leaves is what the two bytes' places say. -/
def Obligations.PullUndoesPush : Prop :=
  ∀ s : State,
    (∀ v : Byte, (s.push8 v).pop8.1 = v ∧ (s.push8 v).pop8.2 = { s with mem := (s.push8 v).mem }) ∧
    (∀ w : Addr, (s.push16 w).pop16.1 = w ∧ (s.push16 w).pop16.2 = { s with mem := (s.push16 w).mem } ∧
      ∀ a : Addr, (s.push16 w).mem.read a =
        if a = BitVec.ofNat 16 (pushedAt s 1) then lo w
        else if a = BitVec.ofNat 16 (pushedAt s 0) then hi w else s.mem.read a)

/-- R204: the stack order changes no instruction's SP, and the memory of none but PHA, PHP and JSR, which
are the ones that push. (For an instruction that pulls, the memory read may differ, not the memory left.) -/
def Obligations.StackOrderKeepsTheStackPointer : Prop :=
  ∀ (i : Instr) (s : State) (order : StackOrder), ∃ t u,
    exec i s = .next t ∧ exec i { s with cfg := { s.cfg with stackOrder := order } } = .next u ∧ u.sp = t.sp ∧
      (i.mnemonic ∉ [.pha, .php, .jsr] → u.mem = t.mem)

/-! ### Control flow -/

/-- R220 and R221: both forms of JMP; the absolute form's target is the operand word itself (D27), and the indirect
form wraps inside the vector's page. -/
def Obligations.JmpLoadsPC : Prop :=
  ∀ (s : State) (w : Addr),
    (Runs [0x4C, lo w, hi w] (.jmpAbs w) s fun t => t = { s with pc := w }) ∧
    (Runs [0x6C, lo w, hi w] (.jmpInd w) s fun t =>
      t = { s with pc := t.pc } ∧
        t.pc.toNat =
          (rd s (w.toNat / 256 * 256 + (w.toNat + 1) % 256)).toNat * 256 + (rd s w.toNat).toNat)

/-- R222: JSR, in both stack orders, from PC holding `pcb`: it pushes `pcb + 1`, high byte first, and jumps to
its operand, each byte of which is the pushed byte where the push lands on it (D24). -/
def Obligations.JsrPushesThenJumps : Prop :=
  ∀ (s : State) (w : Addr), Runs [0x20, lo w, hi w] (.jsr w) s fun t =>
    let ret : Addr := s.pc + 1
    let first : Addr := BitVec.ofNat 16 (pushedAt s 0)
    let second : Addr := BitVec.ofNat 16 (pushedAt s 1)
    let operand := fun (a : Addr) (b : Byte) => if a = second then lo ret else if a = first then hi ret else b
    t = { s with sp := t.sp, mem := t.mem, pc := t.pc } ∧ t.sp.toNat = (s.sp.toNat + 254) % 256 ∧
      (∀ a : Addr, t.mem.read a = operand a (s.mem.read a)) ∧
      t.pc.toNat = (operand (s.pc + 1) (hi w)).toNat * 256 + (operand s.pc (lo w)).toNat

/-- R223: RTS, in both stack orders. -/
def Obligations.RtsReturnsPastTheCall : Prop :=
  ∀ s : State, Runs [0x60] .rts s fun t =>
    t = { s with sp := t.sp, pc := t.pc } ∧ t.sp.toNat = (s.sp.toNat + 2) % 256 ∧
      t.pc.toNat = (pulledWord s 0 + 1) % 65536

/-- R224: RTI (D18), in both stack orders: the status as PLP (D5), then the address with nothing added. -/
def Obligations.RtiRestoresStatusAndPC : Prop :=
  ∀ s : State, Runs [0x40] .rti s fun t =>
    t = { s with sp := t.sp, p := t.p, pc := t.pc } ∧ t.sp.toNat = (s.sp.toNat + 3) % 256 ∧
      (∀ k, k < 8 → bit t k =
        if k = bitB then false else if k = bitU then true else (rd s (pulledAt s 0)).getLsbD k) ∧
      t.pc.toNat = pulledWord s 1

/-- R226 to R233 by R225's rule: the eight branches, each from PC holding `pcb`; the base is the next
instruction's address (D6). -/
def Obligations.BranchesAddTheirOffset : Prop :=
  ∀ s : State,
    Branches s 0x90 .bcc (bit s bitC = false) ∧ Branches s 0xB0 .bcs (bit s bitC = true) ∧
    Branches s 0xF0 .beq (bit s bitZ = true) ∧ Branches s 0xD0 .bne (bit s bitZ = false) ∧
    Branches s 0x30 .bmi (bit s bitN = true) ∧ Branches s 0x10 .bpl (bit s bitN = false) ∧
    Branches s 0x50 .bvc (bit s bitV = false) ∧ Branches s 0x70 .bvs (bit s bitV = true)

/-- R240: BRK halts with cause `Brk` and changes nothing else; over a whole step PC is the BRK's address
plus 1 (D10). -/
def Obligations.BrkHalts : Prop :=
  (∀ s : State, Runs [0x00] .brk s fun t => t = { s with run := .halted .brk }) ∧
  (∀ s : State, s.run = .running → s.mem.read s.pc = 0x00 →
    step s = .next { s with pc := s.pc + 1, run := .halted .brk })

/-- A return follows its call, over whole steps and in both stack orders: a JSR whose operand the pushes do not
hit goes to its target, and an RTS taken later with SP as the JSR left it and the two pushed bytes in place continues
at the call's address plus 3, with SP as before the call (R222, R223, example E9). -/
def Obligations.ReturnFollowsTheCall : Prop :=
  ∀ (s : State) (w : Addr), s.run = .running → bytesAtPC s = [0x20, lo w, hi w] → w ≠ s.pc + 1 →
    (∀ k, k < 2 → BitVec.ofNat 16 (pushedAt s k) ≠ s.pc + 1 ∧ BitVec.ofNat 16 (pushedAt s k) ≠ s.pc + 2) →
    ∃ t, step s = .next t ∧ t.pc = w ∧
      ∀ u : State, u.run = .running → u.cfg = t.cfg → u.sp = t.sp → u.mem.read u.pc = 0x60 →
        (∀ k, k < 2 → rd u (pushedAt s k) = rd t (pushedAt s k)) →
        ∃ v, step u = .next v ∧ v = { u with pc := s.pc + 3, sp := s.sp }

/-! ### Flag instructions and NOP -/

/-- R250 to R256: the seven flag instructions. -/
def Obligations.FlagInstructionsWriteOneBit : Prop :=
  ∀ s : State,
    WritesFlag s 0x18 .clc bitC false ∧ WritesFlag s 0x38 .sec bitC true ∧
    WritesFlag s 0x58 .cli bitI false ∧ WritesFlag s 0x78 .sei bitI true ∧
    WritesFlag s 0xD8 .cld bitD false ∧ WritesFlag s 0xF8 .sed bitD true ∧ WritesFlag s 0xB8 .clv bitV false

/-- R257: NOP changes nothing but the fetch's PC increment. -/
def Obligations.NopOnlyAdvances : Prop :=
  (∀ s : State, Runs [0xEA] .nop s fun t => t = s) ∧
  (∀ s : State, s.run = .running → s.mem.read s.pc = 0xEA → step s = .next { s with pc := s.pc + 1 })

/-! ### Memory and addressing -/

/-- R50 and R295, through the host's peek and poke: a write sets one byte, changes no other and nothing else of
the machine. -/
def Obligations.PokeThenPeek : Prop :=
  ∀ (s : State) (a b : Addr) (v : Byte),
    hostPeek (hostPoke s a v) b = (if b = a then v else hostPeek s b) ∧
      hostPoke s a v = { s with mem := s.mem.write a v } ∧ hostPeek s b = s.mem.read b

/-- R51 and R52: words are little-endian, and the high byte wraps at 0xFFFF (D11), or inside the zero page. -/
def Obligations.WordsAreLittleEndian : Prop :=
  ∀ (m : Memory) (a w : Addr) (p : Byte),
    (m.read16 a).toNat = (m.read (BitVec.ofNat 16 (a.toNat + 1))).toNat * 256 + (m.read a).toNat ∧
    (∀ b : Addr, (m.write16 a w).read b =
      if b = BitVec.ofNat 16 (a.toNat + 1) then hi w else if b = a then lo w else m.read b) ∧
    (m.zpRead16 p).toNat =
      (m.read (BitVec.ofNat 16 ((p.toNat + 1) % 256))).toNat * 256 + (m.read (BitVec.ofNat 16 p.toNat)).toNat

/-- Two canonical memories that read the same at every address are the same list: equal memories are equal data
(the model's own form, notes/assumptions/3.md). -/
def Obligations.CanonicalMemoryIsExtensional : Prop :=
  ∀ m n : Memory, m.wf = true → n.wf = true → (∀ a : Addr, m.read a = n.read a) → m = n

/-- R61 to R69: what the resolver gives for each mode, from the bytes at `pcb`. -/
def Obligations.ResolverGivesTheEffectiveAddress : Prop :=
  ∀ s : State,
    let z := (s.mem.read s.pc).toNat
    let w := (s.mem.read (s.pc + 1)).toNat * 256 + z
    let gives := fun (mode : AddressingMode) (ea : Nat) =>
      resolve mode s.pc s.x s.y s.mem = some (BitVec.ofNat 16 ea)
    gives .immediate s.pc.toNat ∧ gives .zeroPage z ∧ gives .zeroPageX ((z + s.x.toNat) % 256) ∧
    gives .zeroPageY ((z + s.y.toNat) % 256) ∧ gives .absolute w ∧ gives .absoluteX ((w + s.x.toNat) % 65536) ∧
    gives .absoluteY ((w + s.y.toNat) % 65536) ∧ gives .indirectX (zpWord s ((z + s.x.toNat) % 256)) ∧
    gives .indirectY ((zpWord s z + s.y.toNat) % 65536)

/-- R70 and R271: resolving the NoAddressing sentinel gives no address, and an instruction rule that did it would
halt with InvalidAddressingRequest, cause code 2, and the pair (opcode, PC at fetch), writing nothing else. -/
def Obligations.ResolvingNoAddressingHalts : Prop :=
  ∀ (i : Instr) (s : State), i.operand.asm.mode = .noAddressing →
    resolve .noAddressing s.pc s.x s.y s.mem = none ∧
    (∀ rule, withEA i s rule =
      .next { s with run := .halted (.invalidAddressingRequest i.opcode (s.pc - 1)) }) ∧
    (∀ rule, withOperand i s rule =
      .next { s with run := .halted (.invalidAddressingRequest i.opcode (s.pc - 1)) }) ∧
    (HaltCause.invalidAddressingRequest i.opcode (s.pc - 1)).code = some 2

/-- Only instructions that store write memory: over all instructions, memory changes under STA, STX, STY, the
memory forms of the shifts, INC, DEC, PHA, PHP and JSR and under no other (R55, R104). -/
def Obligations.OnlyStoresWriteMemory : Prop :=
  ∀ (i : Instr) (s : State), ∃ t, exec i s = .next t ∧
    (t.mem = s.mem ∨
      (i.mnemonic ∈ [.sta, .stx, .sty, .asl, .lsr, .rol, .ror, .inc, .dec, .pha, .php, .jsr] ∧
        i.operand ≠ .accumulator))

/-! ### Encoding -/

/-- Decoding what the encoder writes gives the instruction back, with every operand, whatever follows. -/
def Obligations.DecodeAfterEncode : Prop :=
  ∀ (i : Instr) (rest : List Byte), i.wellFormed = true ∧ decode (encode i ++ rest) = .ok (i, rest)

/-- Each instruction has one spelling: bytes that decode are the encoding of what they decode to. -/
def Obligations.EncodeAfterDecode : Prop :=
  ∀ (bytes : List Byte) (i : Instr) (rest : List Byte),
    decode bytes = .ok (i, rest) → bytes = encode i ++ rest

/-- R86: exactly the 105 listed bytes have no record, and as opcodes they are rejected by name whatever follows;
of every other byte the decoder makes an instruction. -/
def Obligations.IllegalBytesAreTheListed105 : Prop :=
  illegalBytes.length = 105 ∧
  ∀ op : Byte,
    (lookup op = none ↔ op ∈ illegalBytes) ∧
    (op ∈ illegalBytes → ∀ rest, decode (op :: rest) = .error (.unimplementedOpcode op)) ∧
    (op ∉ illegalBytes → ∀ l h, ∃ i rest, decode [op, l, h] = .ok (i, rest))

/-- R84: the record table has 151 rows with different opcodes, and it names the mnemonic, the form and the
length of what the decoder reads from each opcode byte, and of no other byte. -/
def Obligations.OpcodeTableAgreesWithTheDecoder : Prop :=
  opTable.length = 151 ∧ (opTable.map OpRecord.opcode).Nodup ∧
  ∀ (op l h : Byte) (i : Instr) (rest : List Byte), decode [op, l, h] = .ok (i, rest) →
    ∃ r, lookup op = some r ∧ r.mnemonic = i.mnemonic ∧ r.asm = i.operand.asm ∧ r.mode = i.operand.asm.mode ∧
      r.length + rest.length = 3 ∧ (encode i).length = r.length

/-- The five opcode bytes the source itself gives (§8), and one word of each other family, read as the table
says. A sanity statement. -/
def Obligations.SampleWordsDecode : Prop :=
  decode [0x00] = .ok (.brk, []) ∧ decode [0xA9, 0x05] = .ok (.ldaImm 0x05, []) ∧
  decode [0xA2, 0xFF] = .ok (.ldxImm 0xFF, []) ∧ decode [0xAA] = .ok (.tax, []) ∧
  decode [0xE8] = .ok (.inx, []) ∧ decode [0x6D, 0x34, 0x12] = .ok (.adcAbs 0x1234, []) ∧
  decode [0x76, 0xFF] = .ok (.rorZpX 0xFF, []) ∧ decode [0x28] = .ok (.plp, []) ∧
  decode [0x6C, 0xFF, 0x40] = .ok (.jmpInd 0x40FF, []) ∧ decode [0xB8] = .ok (.clv, [])

/-! ### The step -/

/-- The step runs the decoded instruction: when the bytes at PC decode to `i`, the step is `i`'s rule on the state
whose PC is past the opcode byte, and then the advance: none after a halt, past the operands for an instruction
that is no control transfer, or by the literal comparison where the parameter says so (R100, R103, R106 to R108). -/
def Obligations.StepRunsTheDecodedInstruction : Prop :=
  ∀ (s : State) (i : Instr) (rest : List Byte), s.run = .running → decode (bytesAtPC s) = .ok (i, rest) →
    let pcb := s.pc + 1
    let past : Addr := BitVec.ofNat 16 (pcb.toNat + ((encode i).length - 1))
    ∃ t, exec i { s with pc := pcb } = .next t ∧
      step s = .next (
        if t.run ≠ .running then t
        else if s.cfg.pcCompareAdvance then (if t.pc = pcb then { t with pc := past } else t)
        else if i.mnemonic ∈ controlTransfers then t else { t with pc := past })

/-- R106 (D7): with the default parameter, an instruction that is no control transfer and does not halt leaves PC one
past its last byte, and a control transfer leaves the PC its rule wrote. -/
def Obligations.DefaultAdvance : Prop :=
  ∀ (s t : State) (i : Instr) (rest : List Byte), s.run = .running → s.cfg.pcCompareAdvance = false →
    decode (bytesAtPC s) = .ok (i, rest) → step s = .next t → t.run = .running →
    (i.mnemonic ∉ controlTransfers → t.pc.toNat = (s.pc.toNat + (encode i).length) % 65536) ∧
    (i.mnemonic ∈ controlTransfers → exec i { s with pc := s.pc + 1 } = .next t)

/-- R107 (D7): the literal mechanism differs from the default in exactly the steps of a control transfer that writes
`PC = pcb`, which then continues past its operands; RTS and RTI, of length 1, never differ. -/
def Obligations.CompareAdvanceDiffersOnlyAtPcb : Prop :=
  ∀ (s t : State) (i : Instr) (rest : List Byte), s.run = .running → s.cfg.pcCompareAdvance = true →
    decode (bytesAtPC s) = .ok (i, rest) →
    step { s with cfg := { s.cfg with pcCompareAdvance := false } } = .next t →
    step s = .next { t with
      cfg := s.cfg
      pc := if i.mnemonic ∈ controlTransfers ∧ t.pc = s.pc + 1 then
          BitVec.ofNat 16 (s.pc.toNat + (encode i).length) else t.pc } ∧
    (i.mnemonic ∈ [.rts, .rti] → (encode i).length = 1)

/-- Only control transfers write PC in their rule (R104, R105). -/
def Obligations.OnlyControlTransfersWritePC : Prop :=
  ∀ (i : Instr) (s : State), ∃ t, exec i s = .next t ∧
    (i.mnemonic ∉ controlTransfers → t.pc = s.pc)

/-- R102 and R270: an opcode byte without a record halts the machine with the byte and the PC at fetch, cause
code 1 (D15); only PC, left past the byte, and Run change (D12). -/
def Obligations.UnknownOpcodeHalts : Prop :=
  ∀ s : State, s.run = .running → s.mem.read s.pc ∈ illegalBytes →
    step s = .next { s with
      pc := s.pc + 1, run := .halted (.unimplementedOpcode (s.mem.read s.pc) s.pc) } ∧
    (HaltCause.unimplementedOpcode (s.mem.read s.pc) s.pc).code = some 1

/-- No step is taken from a halted state (R100); that `step` then answers the fault `notRunning` is the
model's way to say so (notes/assumptions/2.md). -/
def Obligations.HaltedTakesNoStep : Prop :=
  ∀ (s : State) (c : HaltCause), s.run = .halted c → step s = .fault (.notRunning c)

/-- From every running state there is a step, and it goes on, or halts on BRK, or on one of the 105 bytes; it never
halts any other way, so InvalidAddressingRequest is never reached (R109, R271, R278). The parameters are
kept. -/
def Obligations.RunningStepsOrHaltsByName : Prop :=
  ∀ s : State, s.run = .running → ∃ t, step s = .next t ∧ t.cfg = s.cfg ∧
    (t.run = .running ∨ (t.run = .halted .brk ∧ s.mem.read s.pc = 0x00) ∨
      (t.run = .halted (.unimplementedOpcode (s.mem.read s.pc) s.pc) ∧ s.mem.read s.pc ∈ illegalBytes))

/-- R273: a faulting step writes nothing but Run and the PC increment of the fetch. -/
def Obligations.FaultsArePrecise : Prop :=
  ∀ (s t : State) (c : HaltCause), s.run = .running → step s = .next t → t.run = .halted c →
    c.isFault = true → t = { s with pc := s.pc + 1, run := .halted c }

/-- Memory stays in its canonical form: every step keeps it. -/
def Obligations.StepKeepsMemoryCanonical : Prop :=
  ∀ s t : State, s.wf = true → step s = .next t → t.wf = true

/-- P.U stays 1 and P.B stays 0: every step keeps what reset establishes (R32, R33). -/
def Obligations.StepKeepsUnusedSetAndBreakClear : Prop :=
  ∀ s t : State, bit s bitU = true → bit s bitB = false → step s = .next t →
    bit t bitU = true ∧ bit t bitB = false

/-- `State.reset` is a constructed core after `reset`, with the parameters' defaults (the model's reading,
notes/assumptions/1.md and 4.md); the two invariants hold there, and memory's after construction and load too. -/
def Obligations.InvariantsHoldAtReset : Prop :=
  State.reset = hostReset State.construct ∧ State.reset.cfg = ⟨false, .decThenWrite⟩ ∧
  State.reset.wf = true ∧ bit State.reset bitU = true ∧ bit State.reset bitB = false ∧
  State.construct.wf = true ∧ (∀ (bytes : List Byte) (s t : State), s.wf = true → hostLoad bytes s = .next t →
    t.wf = true) ∧
  ∀ s : State, (hostReset s).wf = s.wf ∧ bit (hostReset s) bitU = true ∧ bit (hostReset s) bitB = false

/-- I, D, B and U are inert: no instruction's effect depends on I or D unless it is PHP, which pushes them, and
none depends on B or U at all. The two runs agree in everything but that bit, which an instruction keeps or writes
the same in both (R30, R31, R32, R152). -/
def Obligations.InertStatusBits : Prop :=
  ∀ (k : Nat) (i : Instr) (s : State) (q : Byte), k ∈ [bitI, bitD, bitB, bitU] →
    (k ∈ [bitI, bitD] → i ≠ .php) → (∀ j, j < 8 → j ≠ k → q.getLsbD j = s.p.getLsbD j) →
    ∃ t u, exec i s = .next t ∧ exec i { s with p := q } = .next u ∧ u = { t with p := u.p } ∧
      ∀ j, j < 8 → j ≠ k → bit u j = bit t j

/-! ### Host operations -/

/-- R40, R41, R290, R292: construction is all zero and not started; reset sets A, X, Y, SP, P and PC, the last
from the reset vector, and leaves Mem, Run and the parameters. P's value is D4, and Run's is D13. -/
def Obligations.ConstructionAndReset : Prop :=
  (∀ a : Addr, State.construct.mem.read a = 0) ∧
  State.construct = { a := 0, x := 0, y := 0, sp := 0, p := 0, pc := 0, mem := State.construct.mem,
                      run := .halted .notStarted, cfg := State.construct.cfg } ∧
  (∀ s : State, hostReset s = { s with
    a := 0, x := 0, y := 0, p := 0x20, sp := 0xFD, pc := s.mem.read 0xFFFD ++ s.mem.read 0xFFFC })

/-- R291: load copies the image from 0x8000 and then writes 0x8000 little-endian into the reset vector; nothing else
changes, and an image over 0x7FFF bytes is refused (D21). -/
def Obligations.LoadPlacesImageAndVector : Prop :=
  ∀ (bytes : List Byte) (s : State),
    (bytes.length ≤ 0x7FFF → ∃ t, hostLoad bytes s = .next t ∧ t = { s with mem := t.mem } ∧
      ∀ n, n < 65536 → rd t n =
        if n = 0xFFFC then 0x00 else if n = 0xFFFD then 0x80
        else if 0x8000 ≤ n ∧ n < 0x8000 + bytes.length then bytes.getD (n - 0x8000) 0 else rd s n) ∧
    (0x7FFF < bytes.length → hostLoad bytes s = .refused (.imageTooLong bytes.length))

/-- R298, R293, R109: a run with fuel is finished, in a state halted by BRK or an unknown opcode, or not finished,
still running; it is never rejected, and more fuel does not change a finished run. -/
def Obligations.RunEndsExactlyAtAHalt : Prop :=
  ∀ (n : Nat) (s : State),
    (∃ c t, hostRun n s = .finished c t ∧ t.run = .halted c ∧
      (c = .brk ∨ ∃ b a, c = .unimplementedOpcode b a ∧ b ∈ illegalBytes) ∧
      ∀ m, hostRun (n + m) s = .finished c t) ∨
    (∃ t, hostRun n s = .notFinished t ∧ t.run = .running)

/-- R89 with R225: an assembler's offset byte exists exactly for targets in -128..127 of the next instruction, and a
taken branch with that byte, at that address, goes to the target (default parameter, or a target that is not the
offset byte). -/
def Obligations.AssembledBranchReachesItsTarget : Prop :=
  ∀ (s : State) (target : Addr),
    ((branchOffset s.pc target).isSome = true ↔
      ∃ d : Int, -128 ≤ d ∧ d ≤ 127 ∧ target = BitVec.ofInt 16 (s.pc.toNat + 2 + d)) ∧
    ∀ o : Byte, branchOffset s.pc target = some o → s.run = .running → s.mem.read s.pc = 0xD0 →
      s.mem.read (s.pc + 1) = o → bit s bitZ = false →
      (s.cfg.pcCompareAdvance = false ∨ target ≠ s.pc + 1) → step s = .next { s with pc := target }
end

