-- ==== Sys2Proof/Laws/Decode.lean ====
section
/-! SUPPORT. Words and their bytes, and the decoder's opcode map against the encoder's opcode bytes. -/

namespace Sys2Proof

/-! ### Words and bytes -/

theorem word_toNat (h l : Byte) : (word h l).toNat = h.toNat * 256 + l.toNat := by
  have := l.isLt
  simp only [word, BitVec.toNat_append]
  rw [Nat.shiftLeft_eq, Nat.mul_comm, ← Nat.two_pow_add_eq_or_of_lt this, Nat.mul_comm]

theorem loByte_toNat (w : Addr) : (loByte w).toNat = w.toNat % 256 := by
  simp [loByte, BitVec.extractLsb'_toNat]

theorem hiByte_toNat (w : Addr) : (hiByte w).toNat = w.toNat / 256 := by
  have := w.isLt
  simp only [hiByte, BitVec.extractLsb'_toNat, Nat.shiftRight_eq_div_pow]
  omega

@[simp] theorem word_hiByte_loByte (w : Addr) : word (hiByte w) (loByte w) = w := by
  apply BitVec.eq_of_toNat_eq
  rw [word_toNat, hiByte_toNat, loByte_toNat]
  omega

@[simp] theorem loByte_word (h l : Byte) : loByte (word h l) = l := by
  have := l.isLt
  apply BitVec.eq_of_toNat_eq
  rw [loByte_toNat, word_toNat]
  omega

@[simp] theorem hiByte_word (h l : Byte) : hiByte (word h l) = h := by
  have := l.isLt
  apply BitVec.eq_of_toNat_eq
  rw [hiByte_toNat, word_toNat]
  omega

@[simp] theorem zext16_toNat (v : Byte) : (zext16 v).toNat = v.toNat := by
  have := v.isLt
  simp only [zext16, BitVec.toNat_setWidth]
  omega

/-! ### The opcode map -/

/-- A decoded shape makes only instructions whose encoding begins with this opcode byte and whose operand
bytes are the ones it was given, in memory order. -/
def Shape.agrees (op : Byte) : Shape → Prop
  | .f1 i => i.opcode = op ∧ i.operand.bytes = []
  | .f2 make => ∀ b, (make b).opcode = op ∧ (make b).operand.bytes = [b]
  | .f3 make => ∀ w, (make w).opcode = op ∧ (make w).operand.bytes = [loByte w, hiByte w]

theorem shapeOf_agrees_nat (n : Nat) (hn : n < 256) :
    ∀ sh ∈ shapeOf (BitVec.ofNat 8 n), sh.agrees (BitVec.ofNat 8 n) := by
  intro sh h
  interval_cases n <;> cases h <;> first | exact ⟨rfl, rfl⟩ | exact fun _ => ⟨rfl, rfl⟩

/-- The opcode map gives to each byte instructions of that byte (R84). -/
theorem shapeOf_agrees {op : Byte} {sh : Shape} (h : shapeOf op = some sh) : sh.agrees op := by
  have := shapeOf_agrees_nat op.toNat op.isLt sh
  rw [BitVec.ofNat_toNat, BitVec.setWidth_eq] at this
  exact this h

/-- What `decode` answers when it answers an instruction: the three formats of R80. -/
theorem decode_ok_cases {bytes rest : List Byte} {i : Instr} (h : decode bytes = .ok (i, rest)) :
    (∃ op, bytes = op :: rest ∧ shapeOf op = some (.f1 i)) ∨
    (∃ op b make, bytes = op :: b :: rest ∧ shapeOf op = some (.f2 make) ∧ i = make b) ∨
    (∃ op l hb make, bytes = op :: l :: hb :: rest ∧ shapeOf op = some (.f3 make) ∧ i = make (word hb l)) := by
  match bytes, h with
  | [], h => simp [decode] at h
  | op :: tail, h =>
    simp only [decode] at h
    split at h
    · simp at h
    · next j hs => cases h; exact .inl ⟨op, rfl, hs⟩
    · next make hs =>
      split at h
      · cases h; exact .inr (.inl ⟨op, _, make, rfl, hs, rfl⟩)
      · simp at h
    · next make hs =>
      split at h
      · cases h; exact .inr (.inr ⟨op, _, _, make, rfl, hs, rfl⟩)
      · simp at h

/-- With three bytes the decoder rejects only an opcode byte without a record. -/
theorem decode_three_error {op l h : Byte} {e : DecodeError} (he : decode [op, l, h] = .error e) :
    shapeOf op = none ∧ e = .unimplementedOpcode op := by
  simp only [decode] at he
  split at he
  · next hs => cases he; exact ⟨hs, rfl⟩
  · cases he
  · cases he
  · cases he

end Sys2Proof
end

