-- ==== Sys2Proof/Laws/State.lean ====
section
/-! SUPPORT. The state by its fields: one lemma per field per update, each true by rfl, so that no proof
unfolds a record update. -/

namespace Sys2Proof.Machine

open Sys2Proof

variable (s : State)

@[simp] theorem State.setA_a (v : Byte) : (s.setA v).a = v := rfl
@[simp] theorem State.setA_x (v : Byte) : (s.setA v).x = s.x := rfl
@[simp] theorem State.setA_y (v : Byte) : (s.setA v).y = s.y := rfl
@[simp] theorem State.setA_sp (v : Byte) : (s.setA v).sp = s.sp := rfl
@[simp] theorem State.setA_p (v : Byte) : (s.setA v).p = s.p := rfl
@[simp] theorem State.setA_pc (v : Byte) : (s.setA v).pc = s.pc := rfl
@[simp] theorem State.setA_mem (v : Byte) : (s.setA v).mem = s.mem := rfl
@[simp] theorem State.setA_run (v : Byte) : (s.setA v).run = s.run := rfl
@[simp] theorem State.setA_cfg (v : Byte) : (s.setA v).cfg = s.cfg := rfl

@[simp] theorem State.setX_a (v : Byte) : (s.setX v).a = s.a := rfl
@[simp] theorem State.setX_x (v : Byte) : (s.setX v).x = v := rfl
@[simp] theorem State.setX_y (v : Byte) : (s.setX v).y = s.y := rfl
@[simp] theorem State.setX_sp (v : Byte) : (s.setX v).sp = s.sp := rfl
@[simp] theorem State.setX_p (v : Byte) : (s.setX v).p = s.p := rfl
@[simp] theorem State.setX_pc (v : Byte) : (s.setX v).pc = s.pc := rfl
@[simp] theorem State.setX_mem (v : Byte) : (s.setX v).mem = s.mem := rfl
@[simp] theorem State.setX_run (v : Byte) : (s.setX v).run = s.run := rfl
@[simp] theorem State.setX_cfg (v : Byte) : (s.setX v).cfg = s.cfg := rfl

@[simp] theorem State.setY_a (v : Byte) : (s.setY v).a = s.a := rfl
@[simp] theorem State.setY_x (v : Byte) : (s.setY v).x = s.x := rfl
@[simp] theorem State.setY_y (v : Byte) : (s.setY v).y = v := rfl
@[simp] theorem State.setY_sp (v : Byte) : (s.setY v).sp = s.sp := rfl
@[simp] theorem State.setY_p (v : Byte) : (s.setY v).p = s.p := rfl
@[simp] theorem State.setY_pc (v : Byte) : (s.setY v).pc = s.pc := rfl
@[simp] theorem State.setY_mem (v : Byte) : (s.setY v).mem = s.mem := rfl
@[simp] theorem State.setY_run (v : Byte) : (s.setY v).run = s.run := rfl
@[simp] theorem State.setY_cfg (v : Byte) : (s.setY v).cfg = s.cfg := rfl

@[simp] theorem State.setSP_a (v : Byte) : (s.setSP v).a = s.a := rfl
@[simp] theorem State.setSP_x (v : Byte) : (s.setSP v).x = s.x := rfl
@[simp] theorem State.setSP_y (v : Byte) : (s.setSP v).y = s.y := rfl
@[simp] theorem State.setSP_sp (v : Byte) : (s.setSP v).sp = v := rfl
@[simp] theorem State.setSP_p (v : Byte) : (s.setSP v).p = s.p := rfl
@[simp] theorem State.setSP_pc (v : Byte) : (s.setSP v).pc = s.pc := rfl
@[simp] theorem State.setSP_mem (v : Byte) : (s.setSP v).mem = s.mem := rfl
@[simp] theorem State.setSP_run (v : Byte) : (s.setSP v).run = s.run := rfl
@[simp] theorem State.setSP_cfg (v : Byte) : (s.setSP v).cfg = s.cfg := rfl

@[simp] theorem State.setP_a (v : Byte) : (s.setP v).a = s.a := rfl
@[simp] theorem State.setP_x (v : Byte) : (s.setP v).x = s.x := rfl
@[simp] theorem State.setP_y (v : Byte) : (s.setP v).y = s.y := rfl
@[simp] theorem State.setP_sp (v : Byte) : (s.setP v).sp = s.sp := rfl
@[simp] theorem State.setP_p (v : Byte) : (s.setP v).p = v := rfl
@[simp] theorem State.setP_pc (v : Byte) : (s.setP v).pc = s.pc := rfl
@[simp] theorem State.setP_mem (v : Byte) : (s.setP v).mem = s.mem := rfl
@[simp] theorem State.setP_run (v : Byte) : (s.setP v).run = s.run := rfl
@[simp] theorem State.setP_cfg (v : Byte) : (s.setP v).cfg = s.cfg := rfl

@[simp] theorem State.setPC_a (v : Addr) : (s.setPC v).a = s.a := rfl
@[simp] theorem State.setPC_x (v : Addr) : (s.setPC v).x = s.x := rfl
@[simp] theorem State.setPC_y (v : Addr) : (s.setPC v).y = s.y := rfl
@[simp] theorem State.setPC_sp (v : Addr) : (s.setPC v).sp = s.sp := rfl
@[simp] theorem State.setPC_p (v : Addr) : (s.setPC v).p = s.p := rfl
@[simp] theorem State.setPC_pc (v : Addr) : (s.setPC v).pc = v := rfl
@[simp] theorem State.setPC_mem (v : Addr) : (s.setPC v).mem = s.mem := rfl
@[simp] theorem State.setPC_run (v : Addr) : (s.setPC v).run = s.run := rfl
@[simp] theorem State.setPC_cfg (v : Addr) : (s.setPC v).cfg = s.cfg := rfl

@[simp] theorem State.setMem_a (v : Memory) : (s.setMem v).a = s.a := rfl
@[simp] theorem State.setMem_x (v : Memory) : (s.setMem v).x = s.x := rfl
@[simp] theorem State.setMem_y (v : Memory) : (s.setMem v).y = s.y := rfl
@[simp] theorem State.setMem_sp (v : Memory) : (s.setMem v).sp = s.sp := rfl
@[simp] theorem State.setMem_p (v : Memory) : (s.setMem v).p = s.p := rfl
@[simp] theorem State.setMem_pc (v : Memory) : (s.setMem v).pc = s.pc := rfl
@[simp] theorem State.setMem_mem (v : Memory) : (s.setMem v).mem = v := rfl
@[simp] theorem State.setMem_run (v : Memory) : (s.setMem v).run = s.run := rfl
@[simp] theorem State.setMem_cfg (v : Memory) : (s.setMem v).cfg = s.cfg := rfl

@[simp] theorem State.setRun_a (v : RunState) : (s.setRun v).a = s.a := rfl
@[simp] theorem State.setRun_x (v : RunState) : (s.setRun v).x = s.x := rfl
@[simp] theorem State.setRun_y (v : RunState) : (s.setRun v).y = s.y := rfl
@[simp] theorem State.setRun_sp (v : RunState) : (s.setRun v).sp = s.sp := rfl
@[simp] theorem State.setRun_p (v : RunState) : (s.setRun v).p = s.p := rfl
@[simp] theorem State.setRun_pc (v : RunState) : (s.setRun v).pc = s.pc := rfl
@[simp] theorem State.setRun_mem (v : RunState) : (s.setRun v).mem = s.mem := rfl
@[simp] theorem State.setRun_run (v : RunState) : (s.setRun v).run = v := rfl
@[simp] theorem State.setRun_cfg (v : RunState) : (s.setRun v).cfg = s.cfg := rfl

/-! ### Registers by name -/

@[simp] theorem State.get_a : s.get .a = s.a := rfl
@[simp] theorem State.get_x : s.get .x = s.x := rfl
@[simp] theorem State.get_y : s.get .y = s.y := rfl
@[simp] theorem State.get_sp : s.get .sp = s.sp := rfl
@[simp] theorem State.set_a (v : Byte) : s.set .a v = s.setA v := rfl
@[simp] theorem State.set_x (v : Byte) : s.set .x v = s.setX v := rfl
@[simp] theorem State.set_y (v : Byte) : s.set .y v = s.setY v := rfl
@[simp] theorem State.set_sp (v : Byte) : s.set .sp v = s.setSP v := rfl
@[simp] theorem State.set_status (r : Reg) (v : Byte) : (s.set r v).p = s.p := by cases r <;> rfl
@[simp] theorem State.set_pc (r : Reg) (v : Byte) : (s.set r v).pc = s.pc := by cases r <;> rfl
@[simp] theorem State.set_mem (r : Reg) (v : Byte) : (s.set r v).mem = s.mem := by cases r <;> rfl
@[simp] theorem State.set_run (r : Reg) (v : Byte) : (s.set r v).run = s.run := by cases r <;> rfl
@[simp] theorem State.set_cfg (r : Reg) (v : Byte) : (s.set r v).cfg = s.cfg := by cases r <;> rfl

/-- Writing a register writes that register and no other. -/
theorem State.get_set (r q : Reg) (v : Byte) : (s.set r v).get q = if q = r then v else s.get q := by
  cases r <;> cases q <;> rfl

/-! ### Stores and halts -/

@[simp] theorem State.store_a (a : Addr) (v : Byte) : (s.store a v).a = s.a := rfl
@[simp] theorem State.store_x (a : Addr) (v : Byte) : (s.store a v).x = s.x := rfl
@[simp] theorem State.store_y (a : Addr) (v : Byte) : (s.store a v).y = s.y := rfl
@[simp] theorem State.store_sp (a : Addr) (v : Byte) : (s.store a v).sp = s.sp := rfl
@[simp] theorem State.store_p (a : Addr) (v : Byte) : (s.store a v).p = s.p := rfl
@[simp] theorem State.store_pc (a : Addr) (v : Byte) : (s.store a v).pc = s.pc := rfl
@[simp] theorem State.store_mem (a : Addr) (v : Byte) : (s.store a v).mem = s.mem.write a v := rfl
@[simp] theorem State.store_run (a : Addr) (v : Byte) : (s.store a v).run = s.run := rfl
@[simp] theorem State.store_cfg (a : Addr) (v : Byte) : (s.store a v).cfg = s.cfg := rfl

@[simp] theorem State.halt_a (c : HaltCause) : (s.halt c).a = s.a := rfl
@[simp] theorem State.halt_x (c : HaltCause) : (s.halt c).x = s.x := rfl
@[simp] theorem State.halt_y (c : HaltCause) : (s.halt c).y = s.y := rfl
@[simp] theorem State.halt_sp (c : HaltCause) : (s.halt c).sp = s.sp := rfl
@[simp] theorem State.halt_p (c : HaltCause) : (s.halt c).p = s.p := rfl
@[simp] theorem State.halt_pc (c : HaltCause) : (s.halt c).pc = s.pc := rfl
@[simp] theorem State.halt_mem (c : HaltCause) : (s.halt c).mem = s.mem := rfl
@[simp] theorem State.halt_run (c : HaltCause) : (s.halt c).run = .halted c := rfl
@[simp] theorem State.halt_cfg (c : HaltCause) : (s.halt c).cfg = s.cfg := rfl

@[simp] theorem State.loadStatus_a (v : Byte) : (s.loadStatus v).a = s.a := rfl
@[simp] theorem State.loadStatus_x (v : Byte) : (s.loadStatus v).x = s.x := rfl
@[simp] theorem State.loadStatus_y (v : Byte) : (s.loadStatus v).y = s.y := rfl
@[simp] theorem State.loadStatus_sp (v : Byte) : (s.loadStatus v).sp = s.sp := rfl
@[simp] theorem State.loadStatus_p (v : Byte) : (s.loadStatus v).p = (v &&& 0xCF) ||| 0x20 := rfl
@[simp] theorem State.loadStatus_pc (v : Byte) : (s.loadStatus v).pc = s.pc := rfl
@[simp] theorem State.loadStatus_mem (v : Byte) : (s.loadStatus v).mem = s.mem := rfl
@[simp] theorem State.loadStatus_run (v : Byte) : (s.loadStatus v).run = s.run := rfl
@[simp] theorem State.loadStatus_cfg (v : Byte) : (s.loadStatus v).cfg = s.cfg := rfl

/-- A fault writes the run state and nothing else (R273). -/
theorem State.raiseInvalidAddressing_eq (op : Byte) :
    s.raiseInvalidAddressing op = s.setRun (.halted (.invalidAddressingRequest op (s.pc - 1))) := rfl

end Sys2Proof.Machine
end

