-- ==== Sys2Proof/Laws/Flags.lean ====
section
/-! SUPPORT. P by its bits: what a flag reads after a write, and what each flag computation leaves. -/

namespace Sys2Proof.Machine

open Sys2Proof

/-- Writing one bit of P leaves the other seven (R10). -/
theorem flagOf_withFlag (p : Byte) (f g : Flag) (b : Bool) :
    flagOf (withFlag p f b) g = if g = f then b else flagOf p g := by
  cases f <;> cases g <;> cases b <;> simp [flagOf, withFlag, Flag.bit, Flag.mask]

theorem State.flag_setFlag (s : State) (f g : Flag) (b : Bool) :
    (s.setFlag f b).flag g = if g = f then b else s.flag g := flagOf_withFlag s.p f g b

@[simp] theorem State.flag_setFlag_self (s : State) (f : Flag) (b : Bool) : (s.setFlag f b).flag f = b := by
  simp [State.flag_setFlag]

/-- A bit of P by number, after a flag write. -/
theorem State.setFlag_bit (s : State) (f : Flag) (b : Bool) (k : Nat) (hk : k < 8) :
    (s.setFlag f b).p.getLsbD k = if k = f.bit then b else s.p.getLsbD k := by
  show (withFlag s.p f b).getLsbD k = _
  interval_cases k <;> cases f <;> cases b <;> simp [withFlag, Flag.bit, Flag.mask]

@[simp] theorem State.setFlag_a (s : State) (f : Flag) (b : Bool) : (s.setFlag f b).a = s.a := rfl
@[simp] theorem State.setFlag_x (s : State) (f : Flag) (b : Bool) : (s.setFlag f b).x = s.x := rfl
@[simp] theorem State.setFlag_y (s : State) (f : Flag) (b : Bool) : (s.setFlag f b).y = s.y := rfl
@[simp] theorem State.setFlag_sp (s : State) (f : Flag) (b : Bool) : (s.setFlag f b).sp = s.sp := rfl
@[simp] theorem State.setFlag_pc (s : State) (f : Flag) (b : Bool) : (s.setFlag f b).pc = s.pc := rfl
@[simp] theorem State.setFlag_mem (s : State) (f : Flag) (b : Bool) : (s.setFlag f b).mem = s.mem := rfl
@[simp] theorem State.setFlag_run (s : State) (f : Flag) (b : Bool) : (s.setFlag f b).run = s.run := rfl
@[simp] theorem State.setFlag_cfg (s : State) (f : Flag) (b : Bool) : (s.setFlag f b).cfg = s.cfg := rfl

@[simp] theorem State.setZN_a (s : State) (v : Byte) : (s.setZN v).a = s.a := rfl
@[simp] theorem State.setZN_x (s : State) (v : Byte) : (s.setZN v).x = s.x := rfl
@[simp] theorem State.setZN_y (s : State) (v : Byte) : (s.setZN v).y = s.y := rfl
@[simp] theorem State.setZN_sp (s : State) (v : Byte) : (s.setZN v).sp = s.sp := rfl
@[simp] theorem State.setZN_pc (s : State) (v : Byte) : (s.setZN v).pc = s.pc := rfl
@[simp] theorem State.setZN_mem (s : State) (v : Byte) : (s.setZN v).mem = s.mem := rfl
@[simp] theorem State.setZN_run (s : State) (v : Byte) : (s.setZN v).run = s.run := rfl
@[simp] theorem State.setZN_cfg (s : State) (v : Byte) : (s.setZN v).cfg = s.cfg := rfl

@[simp] theorem State.compare_a (s : State) (t m : Byte) : (s.compare t m).a = s.a := rfl
@[simp] theorem State.compare_x (s : State) (t m : Byte) : (s.compare t m).x = s.x := rfl
@[simp] theorem State.compare_y (s : State) (t m : Byte) : (s.compare t m).y = s.y := rfl
@[simp] theorem State.compare_sp (s : State) (t m : Byte) : (s.compare t m).sp = s.sp := rfl
@[simp] theorem State.compare_pc (s : State) (t m : Byte) : (s.compare t m).pc = s.pc := rfl
@[simp] theorem State.compare_mem (s : State) (t m : Byte) : (s.compare t m).mem = s.mem := rfl
@[simp] theorem State.compare_run (s : State) (t m : Byte) : (s.compare t m).run = s.run := rfl
@[simp] theorem State.compare_cfg (s : State) (t m : Byte) : (s.compare t m).cfg = s.cfg := rfl

/-- SetZN writes Z and N and leaves the other six bits (R150). -/
theorem State.setZN_bit (s : State) (v : Byte) (k : Nat) (hk : k < 8) :
    (s.setZN v).p.getLsbD k =
      if k = 7 then v.getLsbD 7 else if k = 1 then v == 0 else s.p.getLsbD k := by
  rw [State.setZN, State.setFlag_bit _ _ _ _ hk, State.setFlag_bit _ _ _ _ hk]
  rfl

/-- Compare writes C, Z and N and leaves the other five bits (R155). -/
theorem State.compare_bit (s : State) (t m : Byte) (k : Nat) (hk : k < 8) :
    (s.compare t m).p.getLsbD k =
      if k = 7 then (t - m).getLsbD 7 else if k = 1 then t - m == 0
      else if k = 0 then decide (m.toNat ≤ t.toNat) else s.p.getLsbD k := by
  rw [State.compare, State.setZN_bit _ _ _ hk, State.setFlag_bit _ _ _ _ hk]
  rfl

/-- Bit 7 is the sign bit. -/
theorem getLsbD_seven (v : Byte) : v.getLsbD 7 = decide (128 ≤ v.toNat) := by
  have := v.isLt
  rw [BitVec.getLsbD, Nat.testBit_eq_decide_div_mod_eq]
  simp only [decide_eq_decide]
  omega

/-- The sum of Add8 modulo 256 (R151). -/
theorem add8_result_toNat (a b : Byte) (c : Bool) :
    (add8 a b c).result.toNat = (a.toNat + b.toNat + c.toNat) % 256 := by
  simp [add8]

/-- The status PLP and RTI load, by its bits (R208). -/
theorem State.loadStatus_bit (s : State) (v : Byte) (k : Nat) (hk : k < 8) :
    (s.loadStatus v).p.getLsbD k = if k = 4 then false else if k = 5 then true else v.getLsbD k := by
  interval_cases k <;> simp

end Sys2Proof.Machine
end

