-- ==== Sys2Proof/Laws/Operands.lean ====
section
/-! SUPPORT. The resolver: everything the two ways of using it can do, and its agreement with the bytes in
memory. -/

namespace Sys2Proof.Machine

open Sys2Proof

/-- All that `withEA` can do: run the rule at the effective address, or raise InvalidAddressingRequest. -/
theorem withEA_next (i : Instr) (s : State) (rule : Addr → State) :
    ∃ t, withEA i s rule = .next t ∧
      ((∃ ea, s.ea i.operand = some ea ∧ t = rule ea) ∨
        (s.ea i.operand = none ∧ t = s.raiseInvalidAddressing i.opcode)) := by
  unfold withEA
  cases h : s.ea i.operand with
  | none => exact ⟨_, rfl, .inr ⟨rfl, rfl⟩⟩
  | some ea => exact ⟨_, rfl, .inl ⟨ea, rfl, rfl⟩⟩

/-- All that `withOperand` can do: run the rule on the operand byte, or raise InvalidAddressingRequest. -/
theorem withOperand_next (i : Instr) (s : State) (rule : Byte → State) :
    ∃ t, withOperand i s rule = .next t ∧
      ((∃ m, s.operandByte i.operand = some m ∧ t = rule m) ∨
        (s.operandByte i.operand = none ∧ t = s.raiseInvalidAddressing i.opcode)) := by
  unfold withOperand
  cases h : s.operandByte i.operand with
  | none => exact ⟨_, rfl, .inr ⟨rfl, rfl⟩⟩
  | some m => exact ⟨_, rfl, .inl ⟨m, rfl, rfl⟩⟩

/-- The resolver gives an address for every form but the four recorded as NoAddressing (R70, R85). -/
theorem effectiveAddress_isSome (o : Operand) (pcb : Addr) (x y : Byte) (m : Memory) :
    (effectiveAddress o pcb x y m).isSome = (o.asm.mode != .noAddressing) := by
  cases o <;> rfl

/-- Where the operand bytes stand in memory at `pcb`, the spec's own resolver gives what the assembled operand
gives (R60, R82). -/
theorem resolve_eq_effectiveAddress (o : Operand) (pcb : Addr) (x y : Byte) (m : Memory)
    (h : operandAt o.asm.mode pcb m = o) : resolve o.asm.mode pcb x y m = effectiveAddress o pcb x y m := by
  rw [resolve, h]

end Sys2Proof.Machine
end

