-- ==== Sys2Proof/Laws/Memory.lean ====
section
/-! SUPPORT. Memory: what a read gives after a write, and that every operation keeps the canonical form. -/

namespace Sys2Proof.Machine

open Sys2Proof

/-! ### Reads after writes -/

theorem Memory.readNat_clear_self (m : Memory) (a : Nat) : (m.clear a).readNat a = Memory.unlisted := by
  induction m with
  | nil => rfl
  | cons e m ih =>
    obtain ⟨k, b⟩ := e
    by_cases h : k = a <;> simp [Memory.clear, Memory.readNat, h, ih]

theorem Memory.readNat_clear_other (m : Memory) {a b : Nat} (h : b ≠ a) :
    (m.clear a).readNat b = m.readNat b := by
  induction m with
  | nil => rfl
  | cons e m ih =>
    obtain ⟨k, v⟩ := e
    by_cases hk : k = a
    · simp [Memory.clear, Memory.readNat, hk, ih, Ne.symm h]
    · simp [Memory.clear, Memory.readNat, hk, ih]

theorem Memory.readNat_place_other (m : Memory) {a b : Nat} (v : Byte) (h : b ≠ a) :
    (m.place a v).readNat b = m.readNat b := by
  induction m with
  | nil => simp [Memory.place, Memory.readNat, Ne.symm h]
  | cons e m ih =>
    obtain ⟨k, w⟩ := e
    by_cases hk : a < k <;> simp [Memory.place, Memory.readNat, hk, ih, Ne.symm h]

theorem Memory.readNat_place_clear_self (m : Memory) (a : Nat) (v : Byte) :
    ((m.clear a).place a v).readNat a = v := by
  induction m with
  | nil => simp [Memory.clear, Memory.place, Memory.readNat]
  | cons e m ih =>
    obtain ⟨k, w⟩ := e
    by_cases hk : k = a
    · simp [Memory.clear, hk, ih]
    · by_cases hl : a < k <;> simp [Memory.clear, Memory.place, Memory.readNat, hk, hl, ih]

/-- What a read gives after a write, at every address (R50, R56). It needs no canonical form. -/
theorem Memory.read_write (m : Memory) (a b : Addr) (v : Byte) :
    (m.write a v).read b = if b = a then v else m.read b := by
  by_cases h : b = a
  · subst h
    by_cases hv : v = Memory.unlisted
    · simp [Memory.write, Memory.read, hv, Memory.readNat_clear_self]
    · simp [Memory.write, Memory.read, hv, Memory.readNat_place_clear_self]
  · have hn : b.toNat ≠ a.toNat := fun e => h (BitVec.eq_of_toNat_eq e)
    by_cases hv : v = Memory.unlisted
    · simp [Memory.write, Memory.read, hv, h, Memory.readNat_clear_other _ hn]
    · simp [Memory.write, Memory.read, hv, h, Memory.readNat_place_other _ _ hn,
        Memory.readNat_clear_other _ hn]

@[simp] theorem Memory.read_write_self (m : Memory) (a : Addr) (v : Byte) : (m.write a v).read a = v := by
  simp [Memory.read_write]

theorem Memory.read_write_of_ne (m : Memory) {a b : Addr} (v : Byte) (h : b ≠ a) :
    (m.write a v).read b = m.read b := by
  simp [Memory.read_write, h]

@[simp] theorem Memory.read_nil (a : Addr) : Memory.read [] a = 0 := rfl

/-- What a read gives after a word write (R51). -/
theorem Memory.read_write16 (m : Memory) (a b : Addr) (w : Addr) :
    (m.write16 a w).read b = if b = a + 1 then hiByte w else if b = a then loByte w else m.read b := by
  simp [Memory.write16, Memory.read_write]

/-! ### The canonical form -/

theorem Memory.wfAbove_cons (lo : Option Nat) (k : Nat) (b : Byte) (m : Memory) :
    Memory.wfAbove lo ((k, b) :: m) = true ↔
      (∀ l, lo = some l → l < k) ∧ k < 65536 ∧ b ≠ Memory.unlisted ∧ Memory.wfAbove (some k) m = true := by
  cases lo <;> simp [Memory.wfAbove, and_assoc]

/-- A lower bound may be made weaker. -/
theorem Memory.wfAbove_mono {l : Nat} {lo : Option Nat} (h : ∀ k, lo = some k → k ≤ l) :
    ∀ {m : Memory}, Memory.wfAbove (some l) m = true → Memory.wfAbove lo m = true
  | [], _ => rfl
  | (k, b) :: m, hm => by
    rw [Memory.wfAbove_cons] at hm ⊢
    exact ⟨fun j hj => lt_of_le_of_lt (h j hj) (hm.1 l rfl), hm.2⟩

theorem Memory.wfAbove_clear (a : Nat) :
    ∀ {lo : Option Nat} {m : Memory}, Memory.wfAbove lo m = true → Memory.wfAbove lo (m.clear a) = true
  | _, [], _ => rfl
  | lo, (k, b) :: m, hm => by
    rw [Memory.wfAbove_cons] at hm
    have ih := Memory.wfAbove_clear a hm.2.2.2
    by_cases hk : k = a
    · simp only [Memory.clear, hk, if_true]
      exact Memory.wfAbove_mono (fun j hj => (hm.1 j hj).le) (hk ▸ ih)
    · simp only [Memory.clear, hk, if_false, Memory.wfAbove_cons]
      exact ⟨hm.1, hm.2.1, hm.2.2.1, ih⟩

/-- No entry for `a`. -/
def Memory.free (a : Nat) : Memory → Prop
  | [] => True
  | (k, _) :: m => k ≠ a ∧ Memory.free a m

theorem Memory.free_clear (a : Nat) : ∀ m : Memory, Memory.free a (m.clear a)
  | [] => trivial
  | (k, b) :: m => by
    by_cases hk : k = a
    · simpa [Memory.clear, hk] using Memory.free_clear a m
    · simpa [Memory.clear, hk, Memory.free] using Memory.free_clear a m

theorem Memory.wfAbove_place {a : Nat} {v : Byte} (ha : a < 65536) (hv : v ≠ Memory.unlisted) :
    ∀ {lo : Option Nat} {m : Memory}, Memory.wfAbove lo m = true → (∀ l, lo = some l → l < a) →
      Memory.free a m → Memory.wfAbove lo (m.place a v) = true
  | lo, [], _, hlo, _ => (Memory.wfAbove_cons lo a v []).2 ⟨hlo, ha, hv, rfl⟩
  | lo, (k, b) :: m, hm, hlo, hf => by
    have hm' := (Memory.wfAbove_cons lo k b m).1 hm
    by_cases hk : a < k
    · simp only [Memory.place, hk, if_true, Memory.wfAbove_cons]
      exact ⟨hlo, ha, hv, by simpa using hk, hm'.2⟩
    · have hka : k < a := lt_of_le_of_ne (not_lt.1 hk) hf.1
      simp only [Memory.place, hk, if_false, Memory.wfAbove_cons]
      exact ⟨hm'.1, hm'.2.1, hm'.2.2.1,
        Memory.wfAbove_place ha hv hm'.2.2.2 (by simpa using hka) hf.2⟩

/-- A byte write keeps the canonical form. -/
theorem Memory.wf_write {m : Memory} (h : m.wf = true) (a : Addr) (v : Byte) : (m.write a v).wf = true := by
  unfold Memory.write Memory.wf
  have hc := Memory.wfAbove_clear a.toNat h
  split
  · exact hc
  · exact Memory.wfAbove_place a.isLt ‹_› hc (by simp) (Memory.free_clear _ _)

/-- A word write keeps the canonical form. -/
theorem Memory.wf_write16 {m : Memory} (h : m.wf = true) (a w : Addr) : (m.write16 a w).wf = true :=
  Memory.wf_write (Memory.wf_write h _ _) _ _

/-- Writing bytes keeps the canonical form. -/
theorem Memory.wf_writeBytes : ∀ (bs : List Byte) {m : Memory}, m.wf = true → ∀ a : Addr,
    (m.writeBytes a bs).wf = true
  | [], _, h, _ => h
  | b :: bs, _, h, a => Memory.wf_writeBytes bs (Memory.wf_write h a b) (a + 1)

theorem Memory.wf_nil : Memory.wf [] = true := rfl

end Sys2Proof.Machine
end

