-- ==== Sys2Proof/Laws/Stack.lean ====
section
/-! SUPPORT. The stack engine by the state's fields, in both stack orders. -/

namespace Sys2Proof.Machine

open Sys2Proof

/-- The SP with which the next pushed byte is written (R200, R204). -/
def State.pushOffset (s : State) : Byte :=
  match s.cfg.stackOrder with
  | .decThenWrite => s.sp - 1
  | .writeThenDec => s.sp

/-- The SP with which the next pulled byte is read (R201, R204). -/
def State.pullOffset (s : State) : Byte :=
  match s.cfg.stackOrder with
  | .decThenWrite => s.sp
  | .writeThenDec => s.sp + 1

/-- A push writes one byte at its offset in page 1 and takes 1 from SP, and nothing else. -/
theorem State.push8_eq (s : State) (v : Byte) :
    s.push8 v = { s with sp := s.sp - 1, mem := s.mem.write (stackAddr s.pushOffset) v } := by
  unfold State.push8 State.pushOffset
  cases s.cfg.stackOrder <;> rfl

/-- A pull reads the byte at its offset in page 1 and adds 1 to SP, and nothing else. -/
theorem State.pop8_eq (s : State) :
    s.pop8 = (s.mem.read (stackAddr s.pullOffset), { s with sp := s.sp + 1 }) := by
  unfold State.pop8 State.pullOffset
  cases s.cfg.stackOrder <;> rfl

@[simp] theorem State.push8_a (s : State) (v : Byte) : (s.push8 v).a = s.a := by rw [State.push8_eq]
@[simp] theorem State.push8_x (s : State) (v : Byte) : (s.push8 v).x = s.x := by rw [State.push8_eq]
@[simp] theorem State.push8_y (s : State) (v : Byte) : (s.push8 v).y = s.y := by rw [State.push8_eq]
@[simp] theorem State.push8_sp (s : State) (v : Byte) : (s.push8 v).sp = s.sp - 1 := by rw [State.push8_eq]
@[simp] theorem State.push8_p (s : State) (v : Byte) : (s.push8 v).p = s.p := by rw [State.push8_eq]
@[simp] theorem State.push8_pc (s : State) (v : Byte) : (s.push8 v).pc = s.pc := by rw [State.push8_eq]
@[simp] theorem State.push8_run (s : State) (v : Byte) : (s.push8 v).run = s.run := by rw [State.push8_eq]
@[simp] theorem State.push8_cfg (s : State) (v : Byte) : (s.push8 v).cfg = s.cfg := by rw [State.push8_eq]
@[simp] theorem State.push8_mem (s : State) (v : Byte) :
    (s.push8 v).mem = s.mem.write (stackAddr s.pushOffset) v := by rw [State.push8_eq]

@[simp] theorem State.pop8_value (s : State) : s.pop8.1 = s.mem.read (stackAddr s.pullOffset) := by
  rw [State.pop8_eq]
@[simp] theorem State.pop8_state (s : State) : s.pop8.2 = s.setSP (s.sp + 1) := by
  rw [State.pop8_eq]; rfl

/-- What a pull after a push reads (R201). -/
theorem State.pullOffset_push8 (s : State) (v : Byte) : (s.push8 v).pullOffset = s.pushOffset := by
  unfold State.pullOffset State.pushOffset
  rw [State.push8_cfg, State.push8_sp]
  cases s.cfg.stackOrder <;> simp

/-- Two offsets of the stack page are two addresses. -/
theorem stackAddr_inj {m n : Byte} (h : stackAddr m = stackAddr n) : m = n := by
  have h' := congrArg BitVec.toNat h
  have hm := m.isLt
  have hn := n.isLt
  apply BitVec.eq_of_toNat_eq
  simp only [stackAddr, zext16, BitVec.toNat_add, BitVec.toNat_setWidth] at h'
  norm_num at h'
  omega

/-- The stack page: every address the stack engine forms lies in 0x0100..0x01FF (R24). -/
theorem stackAddr_toNat (v : Byte) : (stackAddr v).toNat = 0x0100 + v.toNat := by
  have := v.isLt
  simp only [stackAddr, zext16, BitVec.toNat_add, BitVec.toNat_setWidth]
  show (256 + _) % _ = _
  omega

end Sys2Proof.Machine
end

