-- ==== Sys2Proof/Laws/Exec.lean ====
section
/-! SUPPORT. What the shared operations of the instruction rules can do, one lemma each, and what no
instruction does. -/

namespace Sys2Proof.Machine

open Sys2Proof

/-! ### The shared operations -/

/-- A load from an operand byte `m` (R130 to R132). -/
theorem load_of_operand (r : Reg) {i : Instr} {s : State} {m : Byte} (h : s.operandByte i.operand = some m) :
    load r i s = .next ((s.set r m).setZN m) := by
  simp [load, withOperand, h]

/-- A store to an effective address (R133 to R135). -/
theorem store_of_ea (r : Reg) {i : Instr} {s : State} {ea : Addr} (h : s.ea i.operand = some ea) :
    store r i s = .next (s.store ea (s.get r)) := by
  simp [store, withEA, h]

/-- ADC of an operand byte (R160). -/
theorem addWithCarry_of_operand {i : Instr} {s : State} {m : Byte} (h : s.operandByte i.operand = some m) :
    addWithCarry i s = .next (addToA m s) := by
  simp [addWithCarry, withOperand, h]

/-- SBC of an operand byte (R161). -/
theorem subWithBorrow_of_operand {i : Instr} {s : State} {m : Byte} (h : s.operandByte i.operand = some m) :
    subWithBorrow i s = .next (addToA (~~~m) s) := by
  simp [subWithBorrow, withOperand, h]

/-- What an addition into A leaves in every field (R151, R160): all but A and P are kept. -/
theorem addToA_frame (m : Byte) (s : State) :
    addToA m s = { s with a := (add8 s.a m (s.flag .c)).result, p := (addToA m s).p } := rfl

/-- P after an addition into A, bit by bit (R151, R160). -/
theorem addToA_bit (m : Byte) (s : State) (k : Nat) (hk : k < 8) :
    (addToA m s).p.getLsbD k =
      if k = 7 then (add8 s.a m (s.flag .c)).result.getLsbD 7
      else if k = 1 then (add8 s.a m (s.flag .c)).result == 0
      else if k = 6 then (add8 s.a m (s.flag .c)).overflow
      else if k = 0 then (add8 s.a m (s.flag .c)).carry else s.p.getLsbD k := by
  rw [addToA, State.setZN_bit _ _ _ hk, State.setFlag_bit _ _ _ _ hk, State.setFlag_bit _ _ _ _ hk]
  rfl

/-- A shift or rotate at an effective address (R185 to R188). -/
theorem shiftMem_of_ea (f : Byte → Bool → Shifted) {i : Instr} {s : State} {ea : Addr}
    (h : s.ea i.operand = some ea) :
    shiftMem f i s = .next (((s.store ea (f (s.mem.read ea) (s.flag .c)).result).setFlag .c
      (f (s.mem.read ea) (s.flag .c)).carry).setZN (f (s.mem.read ea) (s.flag .c)).result) := by
  simp [shiftMem, withEA, h]

/-- An increment or decrement at an effective address (R189, R190). -/
theorem modifyMem_of_ea (f : Byte → Byte) {i : Instr} {s : State} {ea : Addr} (h : s.ea i.operand = some ea) :
    modifyMem f i s = .next ((s.store ea (f (s.mem.read ea))).setZN (f (s.mem.read ea))) := by
  simp [modifyMem, withEA, h]

/-! ### All instructions -/

/-- What no instruction's rule does: it leaves the parameters, it writes Run only by BRK's halt or an
InvalidAddressingRequest, and it writes at most two bytes of memory (R55, R104, R240). -/
def ExecFrame (i : Instr) (s t : State) : Prop :=
  t.cfg = s.cfg ∧
  (t.run = s.run ∨ (i = .brk ∧ t.run = .halted .brk)) ∧
  (t.mem = s.mem ∨ (∃ a v, t.mem = s.mem.write a v) ∨ ∃ a v b w, t.mem = (s.mem.write a v).write b w)

/-- A rule that leaves the parameters, Run and memory. -/
theorem ExecFrame.kept {i : Instr} {s t : State} (hc : t.cfg = s.cfg) (hr : t.run = s.run) (hm : t.mem = s.mem) :
    ExecFrame i s t := ⟨hc, .inl hr, .inl hm⟩

/-- A rule that leaves the parameters and Run and writes one byte of memory. -/
theorem ExecFrame.stored {i : Instr} {s t : State} {a : Addr} {v : Byte} (hc : t.cfg = s.cfg) (hr : t.run = s.run)
    (hm : t.mem = s.mem.write a v) : ExecFrame i s t := ⟨hc, .inl hr, .inr (.inl ⟨a, v, hm⟩)⟩

/-- A rule on the operand byte of a form that has one. -/
theorem withOperand_frame {i : Instr} {s : State} {rule : Byte → State}
    (ho : (s.operandByte i.operand).isSome = true) (h : ∀ m, ExecFrame i s (rule m)) :
    ∃ t, withOperand i s rule = .next t ∧ ExecFrame i s t := by
  obtain ⟨m, hm⟩ := Option.isSome_iff_exists.1 ho
  exact ⟨rule m, by simp [withOperand, hm], h m⟩

/-- A rule on the effective address of a form that has one. -/
theorem withEA_frame {i : Instr} {s : State} {rule : Addr → State}
    (ho : (s.ea i.operand).isSome = true) (h : ∀ ea, ExecFrame i s (rule ea)) :
    ∃ t, withEA i s rule = .next t ∧ ExecFrame i s t := by
  obtain ⟨ea, hea⟩ := Option.isSome_iff_exists.1 ho
  exact ⟨rule ea, by simp [withEA, hea], h ea⟩

theorem load_frame (r : Reg) (i : Instr) (s : State) (ho : (s.operandByte i.operand).isSome = true) :
    ∃ t, load r i s = .next t ∧ ExecFrame i s t :=
  withOperand_frame ho fun m => .kept (by simp) (by simp) (by simp)

theorem store_frame (r : Reg) (i : Instr) (s : State) (ho : (s.ea i.operand).isSome = true) :
    ∃ t, store r i s = .next t ∧ ExecFrame i s t :=
  withEA_frame ho fun _ => .stored rfl rfl rfl

theorem transfer_frame (src dst : Reg) (i : Instr) (s : State) :
    ∃ t, transfer src dst s = .next t ∧ ExecFrame i s t :=
  ⟨_, rfl, .kept (by simp) (by simp) (by simp)⟩

theorem addWithCarry_frame (i : Instr) (s : State) (ho : (s.operandByte i.operand).isSome = true) :
    ∃ t, addWithCarry i s = .next t ∧ ExecFrame i s t :=
  withOperand_frame ho fun _ => .kept rfl rfl rfl

theorem subWithBorrow_frame (i : Instr) (s : State) (ho : (s.operandByte i.operand).isSome = true) :
    ∃ t, subWithBorrow i s = .next t ∧ ExecFrame i s t :=
  withOperand_frame ho fun _ => .kept rfl rfl rfl

theorem logic_frame (op : Byte → Byte → Byte) (i : Instr) (s : State)
    (ho : (s.operandByte i.operand).isSome = true) : ∃ t, logic op i s = .next t ∧ ExecFrame i s t :=
  withOperand_frame ho fun _ => .kept rfl rfl rfl

theorem compareReg_frame (r : Reg) (i : Instr) (s : State) (ho : (s.operandByte i.operand).isSome = true) :
    ∃ t, compareReg r i s = .next t ∧ ExecFrame i s t :=
  withOperand_frame ho fun _ => .kept rfl rfl rfl

theorem bitTest_frame (i : Instr) (s : State) (ho : (s.operandByte i.operand).isSome = true) :
    ∃ t, bitTest i s = .next t ∧ ExecFrame i s t :=
  withOperand_frame ho fun _ => .kept rfl rfl rfl

theorem shiftA_frame (f : Byte → Bool → Shifted) (i : Instr) (s : State) :
    ∃ t, shiftA f s = .next t ∧ ExecFrame i s t := ⟨_, rfl, .kept rfl rfl rfl⟩

theorem shiftMem_frame (f : Byte → Bool → Shifted) (i : Instr) (s : State)
    (ho : (s.ea i.operand).isSome = true) : ∃ t, shiftMem f i s = .next t ∧ ExecFrame i s t :=
  withEA_frame ho fun _ => .stored rfl rfl rfl

theorem modifyMem_frame (f : Byte → Byte) (i : Instr) (s : State) (ho : (s.ea i.operand).isSome = true) :
    ∃ t, modifyMem f i s = .next t ∧ ExecFrame i s t :=
  withEA_frame ho fun _ => .stored rfl rfl rfl

theorem modifyReg_frame (f : Byte → Byte) (r : Reg) (i : Instr) (s : State) :
    ∃ t, modifyReg f r s = .next t ∧ ExecFrame i s t :=
  ⟨_, rfl, .kept (by simp) (by simp) (by simp)⟩

theorem push8_frame (i : Instr) (s : State) (v : Byte) : ExecFrame i s (s.push8 v) :=
  .stored (by simp) (by simp) (State.push8_mem s v)

theorem callSubroutine_frame (i : Instr) (w : Addr) (s : State) : ExecFrame i s (callSubroutine w s) :=
  ⟨by simp [callSubroutine, State.push16], .inl (by simp [callSubroutine, State.push16]),
    .inr (.inr ⟨_, _, _, _, by simp only [callSubroutine, State.setPC_mem, State.push16, State.push8_mem]; rfl⟩)⟩

/-- Every instruction's rule answers a next state, within the frame: there are no traps and no refusals
(R272, R279). -/
theorem exec_next_frame : ∀ (i : Instr) (s : State), ∃ t, exec i s = .next t ∧ ExecFrame i s t
  | .brk, s => ⟨_, rfl, rfl, .inr ⟨rfl, rfl⟩, .inl rfl⟩
  | .oraIndX z, s => logic_frame (· ||| ·) (.oraIndX z) s rfl
  | .oraZp z, s => logic_frame (· ||| ·) (.oraZp z) s rfl
  | .aslZp z, s => shiftMem_frame asl8 (.aslZp z) s rfl
  | .php, s => ⟨_, rfl, push8_frame _ s _⟩
  | .oraImm i, s => logic_frame (· ||| ·) (.oraImm i) s rfl
  | .aslAcc, s => shiftA_frame asl8 (.aslAcc) s
  | .oraAbs w, s => logic_frame (· ||| ·) (.oraAbs w) s rfl
  | .aslAbs w, s => shiftMem_frame asl8 (.aslAbs w) s rfl
  | .bpl o, s => ⟨_, rfl, .kept rfl rfl rfl⟩
  | .oraIndY z, s => logic_frame (· ||| ·) (.oraIndY z) s rfl
  | .oraZpX z, s => logic_frame (· ||| ·) (.oraZpX z) s rfl
  | .aslZpX z, s => shiftMem_frame asl8 (.aslZpX z) s rfl
  | .clc, s => ⟨_, rfl, .kept rfl rfl rfl⟩
  | .oraAbsY w, s => logic_frame (· ||| ·) (.oraAbsY w) s rfl
  | .oraAbsX w, s => logic_frame (· ||| ·) (.oraAbsX w) s rfl
  | .aslAbsX w, s => shiftMem_frame asl8 (.aslAbsX w) s rfl
  | .jsr w, s => ⟨_, rfl, callSubroutine_frame _ _ s⟩
  | .andIndX z, s => logic_frame (· &&& ·) (.andIndX z) s rfl
  | .bitZp z, s => bitTest_frame (.bitZp z) s rfl
  | .andZp z, s => logic_frame (· &&& ·) (.andZp z) s rfl
  | .rolZp z, s => shiftMem_frame rol8 (.rolZp z) s rfl
  | .plp, s => ⟨_, rfl, .kept (by simp) (by simp) (by simp)⟩
  | .andImm i, s => logic_frame (· &&& ·) (.andImm i) s rfl
  | .rolAcc, s => shiftA_frame rol8 (.rolAcc) s
  | .bitAbs w, s => bitTest_frame (.bitAbs w) s rfl
  | .andAbs w, s => logic_frame (· &&& ·) (.andAbs w) s rfl
  | .rolAbs w, s => shiftMem_frame rol8 (.rolAbs w) s rfl
  | .bmi o, s => ⟨_, rfl, .kept rfl rfl rfl⟩
  | .andIndY z, s => logic_frame (· &&& ·) (.andIndY z) s rfl
  | .andZpX z, s => logic_frame (· &&& ·) (.andZpX z) s rfl
  | .rolZpX z, s => shiftMem_frame rol8 (.rolZpX z) s rfl
  | .sec, s => ⟨_, rfl, .kept rfl rfl rfl⟩
  | .andAbsY w, s => logic_frame (· &&& ·) (.andAbsY w) s rfl
  | .andAbsX w, s => logic_frame (· &&& ·) (.andAbsX w) s rfl
  | .rolAbsX w, s => shiftMem_frame rol8 (.rolAbsX w) s rfl
  | .rti, s => ⟨_, rfl, .kept (by simp [returnFromInterrupt, State.pop16]) (by simp [returnFromInterrupt, State.pop16]) (by simp [returnFromInterrupt, State.pop16])⟩
  | .eorIndX z, s => logic_frame (· ^^^ ·) (.eorIndX z) s rfl
  | .eorZp z, s => logic_frame (· ^^^ ·) (.eorZp z) s rfl
  | .lsrZp z, s => shiftMem_frame lsr8 (.lsrZp z) s rfl
  | .pha, s => ⟨_, rfl, push8_frame _ s _⟩
  | .eorImm i, s => logic_frame (· ^^^ ·) (.eorImm i) s rfl
  | .lsrAcc, s => shiftA_frame lsr8 (.lsrAcc) s
  | .jmpAbs w, s => ⟨_, rfl, .kept rfl rfl rfl⟩
  | .eorAbs w, s => logic_frame (· ^^^ ·) (.eorAbs w) s rfl
  | .lsrAbs w, s => shiftMem_frame lsr8 (.lsrAbs w) s rfl
  | .bvc o, s => ⟨_, rfl, .kept rfl rfl rfl⟩
  | .eorIndY z, s => logic_frame (· ^^^ ·) (.eorIndY z) s rfl
  | .eorZpX z, s => logic_frame (· ^^^ ·) (.eorZpX z) s rfl
  | .lsrZpX z, s => shiftMem_frame lsr8 (.lsrZpX z) s rfl
  | .cli, s => ⟨_, rfl, .kept rfl rfl rfl⟩
  | .eorAbsY w, s => logic_frame (· ^^^ ·) (.eorAbsY w) s rfl
  | .eorAbsX w, s => logic_frame (· ^^^ ·) (.eorAbsX w) s rfl
  | .lsrAbsX w, s => shiftMem_frame lsr8 (.lsrAbsX w) s rfl
  | .rts, s => ⟨_, rfl, .kept (by simp [State.pop16]) (by simp [State.pop16]) (by simp [State.pop16])⟩
  | .adcIndX z, s => addWithCarry_frame (.adcIndX z) s rfl
  | .adcZp z, s => addWithCarry_frame (.adcZp z) s rfl
  | .rorZp z, s => shiftMem_frame ror8 (.rorZp z) s rfl
  | .pla, s => ⟨_, rfl, .kept (by simp [pullA]) (by simp [pullA]) (by simp [pullA])⟩
  | .adcImm i, s => addWithCarry_frame (.adcImm i) s rfl
  | .rorAcc, s => shiftA_frame ror8 (.rorAcc) s
  | .jmpInd w, s => ⟨_, rfl, .kept rfl rfl rfl⟩
  | .adcAbs w, s => addWithCarry_frame (.adcAbs w) s rfl
  | .rorAbs w, s => shiftMem_frame ror8 (.rorAbs w) s rfl
  | .bvs o, s => ⟨_, rfl, .kept rfl rfl rfl⟩
  | .adcIndY z, s => addWithCarry_frame (.adcIndY z) s rfl
  | .adcZpX z, s => addWithCarry_frame (.adcZpX z) s rfl
  | .rorZpX z, s => shiftMem_frame ror8 (.rorZpX z) s rfl
  | .sei, s => ⟨_, rfl, .kept rfl rfl rfl⟩
  | .adcAbsY w, s => addWithCarry_frame (.adcAbsY w) s rfl
  | .adcAbsX w, s => addWithCarry_frame (.adcAbsX w) s rfl
  | .rorAbsX w, s => shiftMem_frame ror8 (.rorAbsX w) s rfl
  | .staIndX z, s => store_frame .a (.staIndX z) s rfl
  | .styZp z, s => store_frame .y (.styZp z) s rfl
  | .staZp z, s => store_frame .a (.staZp z) s rfl
  | .stxZp z, s => store_frame .x (.stxZp z) s rfl
  | .dey, s => modifyReg_frame dec8 .y (.dey) s
  | .txa, s => transfer_frame .x .a (.txa) s
  | .styAbs w, s => store_frame .y (.styAbs w) s rfl
  | .staAbs w, s => store_frame .a (.staAbs w) s rfl
  | .stxAbs w, s => store_frame .x (.stxAbs w) s rfl
  | .bcc o, s => ⟨_, rfl, .kept rfl rfl rfl⟩
  | .staIndY z, s => store_frame .a (.staIndY z) s rfl
  | .styZpX z, s => store_frame .y (.styZpX z) s rfl
  | .staZpX z, s => store_frame .a (.staZpX z) s rfl
  | .stxZpY z, s => store_frame .x (.stxZpY z) s rfl
  | .tya, s => transfer_frame .y .a (.tya) s
  | .staAbsY w, s => store_frame .a (.staAbsY w) s rfl
  | .txs, s => ⟨_, rfl, .kept rfl rfl rfl⟩
  | .staAbsX w, s => store_frame .a (.staAbsX w) s rfl
  | .ldyImm i, s => load_frame .y (.ldyImm i) s rfl
  | .ldaIndX z, s => load_frame .a (.ldaIndX z) s rfl
  | .ldxImm i, s => load_frame .x (.ldxImm i) s rfl
  | .ldyZp z, s => load_frame .y (.ldyZp z) s rfl
  | .ldaZp z, s => load_frame .a (.ldaZp z) s rfl
  | .ldxZp z, s => load_frame .x (.ldxZp z) s rfl
  | .tay, s => transfer_frame .a .y (.tay) s
  | .ldaImm i, s => load_frame .a (.ldaImm i) s rfl
  | .tax, s => transfer_frame .a .x (.tax) s
  | .ldyAbs w, s => load_frame .y (.ldyAbs w) s rfl
  | .ldaAbs w, s => load_frame .a (.ldaAbs w) s rfl
  | .ldxAbs w, s => load_frame .x (.ldxAbs w) s rfl
  | .bcs o, s => ⟨_, rfl, .kept rfl rfl rfl⟩
  | .ldaIndY z, s => load_frame .a (.ldaIndY z) s rfl
  | .ldyZpX z, s => load_frame .y (.ldyZpX z) s rfl
  | .ldaZpX z, s => load_frame .a (.ldaZpX z) s rfl
  | .ldxZpY z, s => load_frame .x (.ldxZpY z) s rfl
  | .clv, s => ⟨_, rfl, .kept rfl rfl rfl⟩
  | .ldaAbsY w, s => load_frame .a (.ldaAbsY w) s rfl
  | .tsx, s => transfer_frame .sp .x (.tsx) s
  | .ldyAbsX w, s => load_frame .y (.ldyAbsX w) s rfl
  | .ldaAbsX w, s => load_frame .a (.ldaAbsX w) s rfl
  | .ldxAbsY w, s => load_frame .x (.ldxAbsY w) s rfl
  | .cpyImm i, s => compareReg_frame .y (.cpyImm i) s rfl
  | .cmpIndX z, s => compareReg_frame .a (.cmpIndX z) s rfl
  | .cpyZp z, s => compareReg_frame .y (.cpyZp z) s rfl
  | .cmpZp z, s => compareReg_frame .a (.cmpZp z) s rfl
  | .decZp z, s => modifyMem_frame dec8 (.decZp z) s rfl
  | .iny, s => modifyReg_frame inc8 .y (.iny) s
  | .cmpImm i, s => compareReg_frame .a (.cmpImm i) s rfl
  | .dex, s => modifyReg_frame dec8 .x (.dex) s
  | .cpyAbs w, s => compareReg_frame .y (.cpyAbs w) s rfl
  | .cmpAbs w, s => compareReg_frame .a (.cmpAbs w) s rfl
  | .decAbs w, s => modifyMem_frame dec8 (.decAbs w) s rfl
  | .bne o, s => ⟨_, rfl, .kept rfl rfl rfl⟩
  | .cmpIndY z, s => compareReg_frame .a (.cmpIndY z) s rfl
  | .cmpZpX z, s => compareReg_frame .a (.cmpZpX z) s rfl
  | .decZpX z, s => modifyMem_frame dec8 (.decZpX z) s rfl
  | .cld, s => ⟨_, rfl, .kept rfl rfl rfl⟩
  | .cmpAbsY w, s => compareReg_frame .a (.cmpAbsY w) s rfl
  | .cmpAbsX w, s => compareReg_frame .a (.cmpAbsX w) s rfl
  | .decAbsX w, s => modifyMem_frame dec8 (.decAbsX w) s rfl
  | .cpxImm i, s => compareReg_frame .x (.cpxImm i) s rfl
  | .sbcIndX z, s => subWithBorrow_frame (.sbcIndX z) s rfl
  | .cpxZp z, s => compareReg_frame .x (.cpxZp z) s rfl
  | .sbcZp z, s => subWithBorrow_frame (.sbcZp z) s rfl
  | .incZp z, s => modifyMem_frame inc8 (.incZp z) s rfl
  | .inx, s => modifyReg_frame inc8 .x (.inx) s
  | .sbcImm i, s => subWithBorrow_frame (.sbcImm i) s rfl
  | .nop, s => ⟨_, rfl, .kept rfl rfl rfl⟩
  | .cpxAbs w, s => compareReg_frame .x (.cpxAbs w) s rfl
  | .sbcAbs w, s => subWithBorrow_frame (.sbcAbs w) s rfl
  | .incAbs w, s => modifyMem_frame inc8 (.incAbs w) s rfl
  | .beq o, s => ⟨_, rfl, .kept rfl rfl rfl⟩
  | .sbcIndY z, s => subWithBorrow_frame (.sbcIndY z) s rfl
  | .sbcZpX z, s => subWithBorrow_frame (.sbcZpX z) s rfl
  | .incZpX z, s => modifyMem_frame inc8 (.incZpX z) s rfl
  | .sed, s => ⟨_, rfl, .kept rfl rfl rfl⟩
  | .sbcAbsY w, s => subWithBorrow_frame (.sbcAbsY w) s rfl
  | .sbcAbsX w, s => subWithBorrow_frame (.sbcAbsX w) s rfl
  | .incAbsX w, s => modifyMem_frame inc8 (.incAbsX w) s rfl

theorem exec_next (i : Instr) (s : State) : ∃ t, exec i s = .next t :=
  let ⟨t, h, _⟩ := exec_next_frame i s
  ⟨t, h⟩

/-- The frame of whatever an instruction's rule answers. -/
theorem exec_frame {i : Instr} {s t : State} (h : exec i s = .next t) : ExecFrame i s t := by
  obtain ⟨u, hu, hf⟩ := exec_next_frame i s
  rw [h] at hu
  cases hu
  exact hf

end Sys2Proof.Machine
end

