-- ==== Sys2Proof/Laws/PerInstr.lean ====
section
/-! SUPPORT. Per-instruction families, one lemma per constructor of Instr. `OpTableRow`: the record table has the
instruction's row, and its encoding has the row's length (30_encoding.md R81, R84, R85). -/

namespace Sys2Proof.Laws.OpTableRow

open Sys2Proof

/-- The row of the opcode table for an instruction, but for the cycle count no rule reads (R110), and its
well-formedness. -/
def Statement (i : Instr) : Prop :=
  (∃ cycles, lookup i.opcode =
    some ⟨i.opcode, i.mnemonic, i.operand.asm, i.operand.asm.mode, (encode i).length, cycles⟩) ∧
  (encode i).length = i.length ∧ i.wellFormed = true

theorem brk : Statement (.brk) := ⟨⟨7, rfl⟩, rfl, rfl⟩
theorem oraIndX (z : Byte) : Statement (.oraIndX z) := ⟨⟨6, rfl⟩, rfl, rfl⟩
theorem oraZp (z : Byte) : Statement (.oraZp z) := ⟨⟨3, rfl⟩, rfl, rfl⟩
theorem aslZp (z : Byte) : Statement (.aslZp z) := ⟨⟨5, rfl⟩, rfl, rfl⟩
theorem php : Statement (.php) := ⟨⟨3, rfl⟩, rfl, rfl⟩
theorem oraImm (i : Byte) : Statement (.oraImm i) := ⟨⟨2, rfl⟩, rfl, rfl⟩
theorem aslAcc : Statement (.aslAcc) := ⟨⟨2, rfl⟩, rfl, rfl⟩
theorem oraAbs (w : Addr) : Statement (.oraAbs w) := ⟨⟨4, rfl⟩, rfl, rfl⟩
theorem aslAbs (w : Addr) : Statement (.aslAbs w) := ⟨⟨6, rfl⟩, rfl, rfl⟩
theorem bpl (o : Byte) : Statement (.bpl o) := ⟨⟨2, rfl⟩, rfl, rfl⟩
theorem oraIndY (z : Byte) : Statement (.oraIndY z) := ⟨⟨5, rfl⟩, rfl, rfl⟩
theorem oraZpX (z : Byte) : Statement (.oraZpX z) := ⟨⟨4, rfl⟩, rfl, rfl⟩
theorem aslZpX (z : Byte) : Statement (.aslZpX z) := ⟨⟨6, rfl⟩, rfl, rfl⟩
theorem clc : Statement (.clc) := ⟨⟨2, rfl⟩, rfl, rfl⟩
theorem oraAbsY (w : Addr) : Statement (.oraAbsY w) := ⟨⟨4, rfl⟩, rfl, rfl⟩
theorem oraAbsX (w : Addr) : Statement (.oraAbsX w) := ⟨⟨4, rfl⟩, rfl, rfl⟩
theorem aslAbsX (w : Addr) : Statement (.aslAbsX w) := ⟨⟨7, rfl⟩, rfl, rfl⟩
theorem jsr (w : Addr) : Statement (.jsr w) := ⟨⟨6, rfl⟩, rfl, rfl⟩
theorem andIndX (z : Byte) : Statement (.andIndX z) := ⟨⟨6, rfl⟩, rfl, rfl⟩
theorem bitZp (z : Byte) : Statement (.bitZp z) := ⟨⟨3, rfl⟩, rfl, rfl⟩
theorem andZp (z : Byte) : Statement (.andZp z) := ⟨⟨3, rfl⟩, rfl, rfl⟩
theorem rolZp (z : Byte) : Statement (.rolZp z) := ⟨⟨5, rfl⟩, rfl, rfl⟩
theorem plp : Statement (.plp) := ⟨⟨4, rfl⟩, rfl, rfl⟩
theorem andImm (i : Byte) : Statement (.andImm i) := ⟨⟨2, rfl⟩, rfl, rfl⟩
theorem rolAcc : Statement (.rolAcc) := ⟨⟨2, rfl⟩, rfl, rfl⟩
theorem bitAbs (w : Addr) : Statement (.bitAbs w) := ⟨⟨4, rfl⟩, rfl, rfl⟩
theorem andAbs (w : Addr) : Statement (.andAbs w) := ⟨⟨4, rfl⟩, rfl, rfl⟩
theorem rolAbs (w : Addr) : Statement (.rolAbs w) := ⟨⟨6, rfl⟩, rfl, rfl⟩
theorem bmi (o : Byte) : Statement (.bmi o) := ⟨⟨2, rfl⟩, rfl, rfl⟩
theorem andIndY (z : Byte) : Statement (.andIndY z) := ⟨⟨5, rfl⟩, rfl, rfl⟩
theorem andZpX (z : Byte) : Statement (.andZpX z) := ⟨⟨4, rfl⟩, rfl, rfl⟩
theorem rolZpX (z : Byte) : Statement (.rolZpX z) := ⟨⟨6, rfl⟩, rfl, rfl⟩
theorem sec : Statement (.sec) := ⟨⟨2, rfl⟩, rfl, rfl⟩
theorem andAbsY (w : Addr) : Statement (.andAbsY w) := ⟨⟨4, rfl⟩, rfl, rfl⟩
theorem andAbsX (w : Addr) : Statement (.andAbsX w) := ⟨⟨4, rfl⟩, rfl, rfl⟩
theorem rolAbsX (w : Addr) : Statement (.rolAbsX w) := ⟨⟨7, rfl⟩, rfl, rfl⟩
theorem rti : Statement (.rti) := ⟨⟨6, rfl⟩, rfl, rfl⟩
theorem eorIndX (z : Byte) : Statement (.eorIndX z) := ⟨⟨6, rfl⟩, rfl, rfl⟩
theorem eorZp (z : Byte) : Statement (.eorZp z) := ⟨⟨3, rfl⟩, rfl, rfl⟩
theorem lsrZp (z : Byte) : Statement (.lsrZp z) := ⟨⟨5, rfl⟩, rfl, rfl⟩
theorem pha : Statement (.pha) := ⟨⟨3, rfl⟩, rfl, rfl⟩
theorem eorImm (i : Byte) : Statement (.eorImm i) := ⟨⟨2, rfl⟩, rfl, rfl⟩
theorem lsrAcc : Statement (.lsrAcc) := ⟨⟨2, rfl⟩, rfl, rfl⟩
theorem jmpAbs (w : Addr) : Statement (.jmpAbs w) := ⟨⟨3, rfl⟩, rfl, rfl⟩
theorem eorAbs (w : Addr) : Statement (.eorAbs w) := ⟨⟨4, rfl⟩, rfl, rfl⟩
theorem lsrAbs (w : Addr) : Statement (.lsrAbs w) := ⟨⟨6, rfl⟩, rfl, rfl⟩
theorem bvc (o : Byte) : Statement (.bvc o) := ⟨⟨2, rfl⟩, rfl, rfl⟩
theorem eorIndY (z : Byte) : Statement (.eorIndY z) := ⟨⟨5, rfl⟩, rfl, rfl⟩
theorem eorZpX (z : Byte) : Statement (.eorZpX z) := ⟨⟨4, rfl⟩, rfl, rfl⟩
theorem lsrZpX (z : Byte) : Statement (.lsrZpX z) := ⟨⟨6, rfl⟩, rfl, rfl⟩
theorem cli : Statement (.cli) := ⟨⟨2, rfl⟩, rfl, rfl⟩
theorem eorAbsY (w : Addr) : Statement (.eorAbsY w) := ⟨⟨4, rfl⟩, rfl, rfl⟩
theorem eorAbsX (w : Addr) : Statement (.eorAbsX w) := ⟨⟨4, rfl⟩, rfl, rfl⟩
theorem lsrAbsX (w : Addr) : Statement (.lsrAbsX w) := ⟨⟨7, rfl⟩, rfl, rfl⟩
theorem rts : Statement (.rts) := ⟨⟨6, rfl⟩, rfl, rfl⟩
theorem adcIndX (z : Byte) : Statement (.adcIndX z) := ⟨⟨6, rfl⟩, rfl, rfl⟩
theorem adcZp (z : Byte) : Statement (.adcZp z) := ⟨⟨3, rfl⟩, rfl, rfl⟩
theorem rorZp (z : Byte) : Statement (.rorZp z) := ⟨⟨5, rfl⟩, rfl, rfl⟩
theorem pla : Statement (.pla) := ⟨⟨4, rfl⟩, rfl, rfl⟩
theorem adcImm (i : Byte) : Statement (.adcImm i) := ⟨⟨2, rfl⟩, rfl, rfl⟩
theorem rorAcc : Statement (.rorAcc) := ⟨⟨2, rfl⟩, rfl, rfl⟩
theorem jmpInd (w : Addr) : Statement (.jmpInd w) := ⟨⟨5, rfl⟩, rfl, rfl⟩
theorem adcAbs (w : Addr) : Statement (.adcAbs w) := ⟨⟨4, rfl⟩, rfl, rfl⟩
theorem rorAbs (w : Addr) : Statement (.rorAbs w) := ⟨⟨6, rfl⟩, rfl, rfl⟩
theorem bvs (o : Byte) : Statement (.bvs o) := ⟨⟨2, rfl⟩, rfl, rfl⟩
theorem adcIndY (z : Byte) : Statement (.adcIndY z) := ⟨⟨5, rfl⟩, rfl, rfl⟩
theorem adcZpX (z : Byte) : Statement (.adcZpX z) := ⟨⟨4, rfl⟩, rfl, rfl⟩
theorem rorZpX (z : Byte) : Statement (.rorZpX z) := ⟨⟨6, rfl⟩, rfl, rfl⟩
theorem sei : Statement (.sei) := ⟨⟨2, rfl⟩, rfl, rfl⟩
theorem adcAbsY (w : Addr) : Statement (.adcAbsY w) := ⟨⟨4, rfl⟩, rfl, rfl⟩
theorem adcAbsX (w : Addr) : Statement (.adcAbsX w) := ⟨⟨4, rfl⟩, rfl, rfl⟩
theorem rorAbsX (w : Addr) : Statement (.rorAbsX w) := ⟨⟨7, rfl⟩, rfl, rfl⟩
theorem staIndX (z : Byte) : Statement (.staIndX z) := ⟨⟨6, rfl⟩, rfl, rfl⟩
theorem styZp (z : Byte) : Statement (.styZp z) := ⟨⟨3, rfl⟩, rfl, rfl⟩
theorem staZp (z : Byte) : Statement (.staZp z) := ⟨⟨3, rfl⟩, rfl, rfl⟩
theorem stxZp (z : Byte) : Statement (.stxZp z) := ⟨⟨3, rfl⟩, rfl, rfl⟩
theorem dey : Statement (.dey) := ⟨⟨2, rfl⟩, rfl, rfl⟩
theorem txa : Statement (.txa) := ⟨⟨2, rfl⟩, rfl, rfl⟩
theorem styAbs (w : Addr) : Statement (.styAbs w) := ⟨⟨4, rfl⟩, rfl, rfl⟩
theorem staAbs (w : Addr) : Statement (.staAbs w) := ⟨⟨4, rfl⟩, rfl, rfl⟩
theorem stxAbs (w : Addr) : Statement (.stxAbs w) := ⟨⟨4, rfl⟩, rfl, rfl⟩
theorem bcc (o : Byte) : Statement (.bcc o) := ⟨⟨2, rfl⟩, rfl, rfl⟩
theorem staIndY (z : Byte) : Statement (.staIndY z) := ⟨⟨6, rfl⟩, rfl, rfl⟩
theorem styZpX (z : Byte) : Statement (.styZpX z) := ⟨⟨4, rfl⟩, rfl, rfl⟩
theorem staZpX (z : Byte) : Statement (.staZpX z) := ⟨⟨4, rfl⟩, rfl, rfl⟩
theorem stxZpY (z : Byte) : Statement (.stxZpY z) := ⟨⟨4, rfl⟩, rfl, rfl⟩
theorem tya : Statement (.tya) := ⟨⟨2, rfl⟩, rfl, rfl⟩
theorem staAbsY (w : Addr) : Statement (.staAbsY w) := ⟨⟨5, rfl⟩, rfl, rfl⟩
theorem txs : Statement (.txs) := ⟨⟨2, rfl⟩, rfl, rfl⟩
theorem staAbsX (w : Addr) : Statement (.staAbsX w) := ⟨⟨5, rfl⟩, rfl, rfl⟩
theorem ldyImm (i : Byte) : Statement (.ldyImm i) := ⟨⟨2, rfl⟩, rfl, rfl⟩
theorem ldaIndX (z : Byte) : Statement (.ldaIndX z) := ⟨⟨6, rfl⟩, rfl, rfl⟩
theorem ldxImm (i : Byte) : Statement (.ldxImm i) := ⟨⟨2, rfl⟩, rfl, rfl⟩
theorem ldyZp (z : Byte) : Statement (.ldyZp z) := ⟨⟨3, rfl⟩, rfl, rfl⟩
theorem ldaZp (z : Byte) : Statement (.ldaZp z) := ⟨⟨3, rfl⟩, rfl, rfl⟩
theorem ldxZp (z : Byte) : Statement (.ldxZp z) := ⟨⟨3, rfl⟩, rfl, rfl⟩
theorem tay : Statement (.tay) := ⟨⟨2, rfl⟩, rfl, rfl⟩
theorem ldaImm (i : Byte) : Statement (.ldaImm i) := ⟨⟨2, rfl⟩, rfl, rfl⟩
theorem tax : Statement (.tax) := ⟨⟨2, rfl⟩, rfl, rfl⟩
theorem ldyAbs (w : Addr) : Statement (.ldyAbs w) := ⟨⟨4, rfl⟩, rfl, rfl⟩
theorem ldaAbs (w : Addr) : Statement (.ldaAbs w) := ⟨⟨4, rfl⟩, rfl, rfl⟩
theorem ldxAbs (w : Addr) : Statement (.ldxAbs w) := ⟨⟨4, rfl⟩, rfl, rfl⟩
theorem bcs (o : Byte) : Statement (.bcs o) := ⟨⟨2, rfl⟩, rfl, rfl⟩
theorem ldaIndY (z : Byte) : Statement (.ldaIndY z) := ⟨⟨5, rfl⟩, rfl, rfl⟩
theorem ldyZpX (z : Byte) : Statement (.ldyZpX z) := ⟨⟨4, rfl⟩, rfl, rfl⟩
theorem ldaZpX (z : Byte) : Statement (.ldaZpX z) := ⟨⟨4, rfl⟩, rfl, rfl⟩
theorem ldxZpY (z : Byte) : Statement (.ldxZpY z) := ⟨⟨4, rfl⟩, rfl, rfl⟩
theorem clv : Statement (.clv) := ⟨⟨2, rfl⟩, rfl, rfl⟩
theorem ldaAbsY (w : Addr) : Statement (.ldaAbsY w) := ⟨⟨4, rfl⟩, rfl, rfl⟩
theorem tsx : Statement (.tsx) := ⟨⟨2, rfl⟩, rfl, rfl⟩
theorem ldyAbsX (w : Addr) : Statement (.ldyAbsX w) := ⟨⟨4, rfl⟩, rfl, rfl⟩
theorem ldaAbsX (w : Addr) : Statement (.ldaAbsX w) := ⟨⟨4, rfl⟩, rfl, rfl⟩
theorem ldxAbsY (w : Addr) : Statement (.ldxAbsY w) := ⟨⟨4, rfl⟩, rfl, rfl⟩
theorem cpyImm (i : Byte) : Statement (.cpyImm i) := ⟨⟨2, rfl⟩, rfl, rfl⟩
theorem cmpIndX (z : Byte) : Statement (.cmpIndX z) := ⟨⟨6, rfl⟩, rfl, rfl⟩
theorem cpyZp (z : Byte) : Statement (.cpyZp z) := ⟨⟨3, rfl⟩, rfl, rfl⟩
theorem cmpZp (z : Byte) : Statement (.cmpZp z) := ⟨⟨3, rfl⟩, rfl, rfl⟩
theorem decZp (z : Byte) : Statement (.decZp z) := ⟨⟨5, rfl⟩, rfl, rfl⟩
theorem iny : Statement (.iny) := ⟨⟨2, rfl⟩, rfl, rfl⟩
theorem cmpImm (i : Byte) : Statement (.cmpImm i) := ⟨⟨2, rfl⟩, rfl, rfl⟩
theorem dex : Statement (.dex) := ⟨⟨2, rfl⟩, rfl, rfl⟩
theorem cpyAbs (w : Addr) : Statement (.cpyAbs w) := ⟨⟨4, rfl⟩, rfl, rfl⟩
theorem cmpAbs (w : Addr) : Statement (.cmpAbs w) := ⟨⟨4, rfl⟩, rfl, rfl⟩
theorem decAbs (w : Addr) : Statement (.decAbs w) := ⟨⟨6, rfl⟩, rfl, rfl⟩
theorem bne (o : Byte) : Statement (.bne o) := ⟨⟨2, rfl⟩, rfl, rfl⟩
theorem cmpIndY (z : Byte) : Statement (.cmpIndY z) := ⟨⟨5, rfl⟩, rfl, rfl⟩
theorem cmpZpX (z : Byte) : Statement (.cmpZpX z) := ⟨⟨4, rfl⟩, rfl, rfl⟩
theorem decZpX (z : Byte) : Statement (.decZpX z) := ⟨⟨6, rfl⟩, rfl, rfl⟩
theorem cld : Statement (.cld) := ⟨⟨2, rfl⟩, rfl, rfl⟩
theorem cmpAbsY (w : Addr) : Statement (.cmpAbsY w) := ⟨⟨4, rfl⟩, rfl, rfl⟩
theorem cmpAbsX (w : Addr) : Statement (.cmpAbsX w) := ⟨⟨4, rfl⟩, rfl, rfl⟩
theorem decAbsX (w : Addr) : Statement (.decAbsX w) := ⟨⟨7, rfl⟩, rfl, rfl⟩
theorem cpxImm (i : Byte) : Statement (.cpxImm i) := ⟨⟨2, rfl⟩, rfl, rfl⟩
theorem sbcIndX (z : Byte) : Statement (.sbcIndX z) := ⟨⟨6, rfl⟩, rfl, rfl⟩
theorem cpxZp (z : Byte) : Statement (.cpxZp z) := ⟨⟨3, rfl⟩, rfl, rfl⟩
theorem sbcZp (z : Byte) : Statement (.sbcZp z) := ⟨⟨3, rfl⟩, rfl, rfl⟩
theorem incZp (z : Byte) : Statement (.incZp z) := ⟨⟨5, rfl⟩, rfl, rfl⟩
theorem inx : Statement (.inx) := ⟨⟨2, rfl⟩, rfl, rfl⟩
theorem sbcImm (i : Byte) : Statement (.sbcImm i) := ⟨⟨2, rfl⟩, rfl, rfl⟩
theorem nop : Statement (.nop) := ⟨⟨2, rfl⟩, rfl, rfl⟩
theorem cpxAbs (w : Addr) : Statement (.cpxAbs w) := ⟨⟨4, rfl⟩, rfl, rfl⟩
theorem sbcAbs (w : Addr) : Statement (.sbcAbs w) := ⟨⟨4, rfl⟩, rfl, rfl⟩
theorem incAbs (w : Addr) : Statement (.incAbs w) := ⟨⟨6, rfl⟩, rfl, rfl⟩
theorem beq (o : Byte) : Statement (.beq o) := ⟨⟨2, rfl⟩, rfl, rfl⟩
theorem sbcIndY (z : Byte) : Statement (.sbcIndY z) := ⟨⟨5, rfl⟩, rfl, rfl⟩
theorem sbcZpX (z : Byte) : Statement (.sbcZpX z) := ⟨⟨4, rfl⟩, rfl, rfl⟩
theorem incZpX (z : Byte) : Statement (.incZpX z) := ⟨⟨6, rfl⟩, rfl, rfl⟩
theorem sed : Statement (.sed) := ⟨⟨2, rfl⟩, rfl, rfl⟩
theorem sbcAbsY (w : Addr) : Statement (.sbcAbsY w) := ⟨⟨4, rfl⟩, rfl, rfl⟩
theorem sbcAbsX (w : Addr) : Statement (.sbcAbsX w) := ⟨⟨4, rfl⟩, rfl, rfl⟩
theorem incAbsX (w : Addr) : Statement (.incAbsX w) := ⟨⟨7, rfl⟩, rfl, rfl⟩

end Sys2Proof.Laws.OpTableRow
end

