-- ==== Sys2Proof/Laws/Step.lean ====
section
/-! SUPPORT. Everything a step can do. -/

namespace Sys2Proof.Machine

open Sys2Proof

/-- The advance writes PC and nothing else. -/
theorem advance_eq (i : Instr) (pcb : Addr) (t : State) : advance i pcb t = { t with pc := (advance i pcb t).pc } := by
  unfold advance
  split
  · rfl
  · split <;> split <;> rfl

@[simp] theorem advance_a (i : Instr) (pcb : Addr) (t : State) : (advance i pcb t).a = t.a := by rw [advance_eq]
@[simp] theorem advance_x (i : Instr) (pcb : Addr) (t : State) : (advance i pcb t).x = t.x := by rw [advance_eq]
@[simp] theorem advance_y (i : Instr) (pcb : Addr) (t : State) : (advance i pcb t).y = t.y := by rw [advance_eq]
@[simp] theorem advance_sp (i : Instr) (pcb : Addr) (t : State) : (advance i pcb t).sp = t.sp := by rw [advance_eq]
@[simp] theorem advance_p (i : Instr) (pcb : Addr) (t : State) : (advance i pcb t).p = t.p := by rw [advance_eq]
@[simp] theorem advance_mem (i : Instr) (pcb : Addr) (t : State) : (advance i pcb t).mem = t.mem := by rw [advance_eq]
@[simp] theorem advance_run (i : Instr) (pcb : Addr) (t : State) : (advance i pcb t).run = t.run := by rw [advance_eq]
@[simp] theorem advance_cfg (i : Instr) (pcb : Addr) (t : State) : (advance i pcb t).cfg = t.cfg := by rw [advance_eq]

/-- A step that answers a next state was taken from a running state, and either halted on an opcode byte
without a record, or ran the decoded instruction's rule and the advance (R108). -/
theorem step_cases {s t : State} (h : step s = .next t) :
    s.run = .running ∧
    ((shapeOf (s.mem.read s.pc) = none ∧ t = s.raiseUnimplemented) ∨
      ∃ i rest u, decode s.fetchBytes = .ok (i, rest) ∧ exec i s.fetched = .next u ∧
        t = advance i (s.pc + 1) u) := by
  unfold step at h
  split at h
  · cases h
  · next hr =>
    refine ⟨hr, ?_⟩
    split at h
    · next e he => cases h; exact .inl ⟨(decode_three_error he).1, rfl⟩
    · next i rest hd =>
      obtain ⟨u, hu⟩ := exec_next i s.fetched
      rw [hu] at h
      cases h
      exact .inr ⟨i, rest, u, hd, hu, rfl⟩

/-- A running state whose bytes at PC decode steps by the instruction's rule and the advance. -/
theorem step_of_decode {s u : State} {i : Instr} {rest : List Byte} (hr : s.run = .running)
    (hd : decode s.fetchBytes = .ok (i, rest)) (hu : exec i s.fetched = .next u) :
    step s = .next (advance i (s.pc + 1) u) := by
  simp only [step, hr, hd, hu, complete]
  rfl

end Sys2Proof.Machine
end

