-- ==== Sys2Proof/Tests/Slice0.lean ====
section
/-! SUPPORT. The model's own tests. Expected results are the spec's: the opcode table's bytes (30_encoding.md R84),
the vectors of 95_test_vectors.md by their names, or a computation by hand from the rule a comment names. At the
end, one witness for each statement with hypotheses. -/

namespace Sys2Proof.Tests

open Sys2Proof Sys2Proof.Machine Sys2Proof.Claims

/-! ### Decoding: every row of R84's table, with the operand byte 0x5A or the operand bytes 0x34 0x12 -/

/-- The bytes decode to the instruction with nothing left, the encoder writes the same bytes, and so does
the numbering of spec/opcode_table.json read them. -/
def readsAs (bytes : List Byte) (i : Instr) : Bool :=
  (match decode bytes with
    | .ok (j, []) => j == i
    | _ => false) &&
  encode i == bytes &&
  decodeTableWord (8 * bytes.length) (bytes.foldr (fun b w => w * 256 + b.toNat) 0) == some i

def allRead (rows : List (List Byte × Instr)) : Bool := rows.all fun r => readsAs r.1 r.2

theorem test_decode_row0 : allRead [
    ([0x00], .brk), ([0x01, 0x5A], .oraIndX 0x5A), ([0x05, 0x5A], .oraZp 0x5A), ([0x06, 0x5A], .aslZp 0x5A),
    ([0x08], .php), ([0x09, 0x5A], .oraImm 0x5A), ([0x0A], .aslAcc), ([0x0D, 0x34, 0x12], .oraAbs 0x1234),
    ([0x0E, 0x34, 0x12], .aslAbs 0x1234)] = true := by decide

theorem test_decode_row1 : allRead [
    ([0x10, 0x5A], .bpl 0x5A), ([0x11, 0x5A], .oraIndY 0x5A), ([0x15, 0x5A], .oraZpX 0x5A),
    ([0x16, 0x5A], .aslZpX 0x5A), ([0x18], .clc), ([0x19, 0x34, 0x12], .oraAbsY 0x1234),
    ([0x1D, 0x34, 0x12], .oraAbsX 0x1234), ([0x1E, 0x34, 0x12], .aslAbsX 0x1234)] = true := by decide

theorem test_decode_row2 : allRead [
    ([0x20, 0x34, 0x12], .jsr 0x1234), ([0x21, 0x5A], .andIndX 0x5A), ([0x24, 0x5A], .bitZp 0x5A),
    ([0x25, 0x5A], .andZp 0x5A), ([0x26, 0x5A], .rolZp 0x5A), ([0x28], .plp), ([0x29, 0x5A], .andImm 0x5A),
    ([0x2A], .rolAcc), ([0x2C, 0x34, 0x12], .bitAbs 0x1234), ([0x2D, 0x34, 0x12], .andAbs 0x1234),
    ([0x2E, 0x34, 0x12], .rolAbs 0x1234)] = true := by decide

theorem test_decode_row3 : allRead [
    ([0x30, 0x5A], .bmi 0x5A), ([0x31, 0x5A], .andIndY 0x5A), ([0x35, 0x5A], .andZpX 0x5A),
    ([0x36, 0x5A], .rolZpX 0x5A), ([0x38], .sec), ([0x39, 0x34, 0x12], .andAbsY 0x1234),
    ([0x3D, 0x34, 0x12], .andAbsX 0x1234), ([0x3E, 0x34, 0x12], .rolAbsX 0x1234)] = true := by decide

theorem test_decode_row4 : allRead [
    ([0x40], .rti), ([0x41, 0x5A], .eorIndX 0x5A), ([0x45, 0x5A], .eorZp 0x5A), ([0x46, 0x5A], .lsrZp 0x5A),
    ([0x48], .pha), ([0x49, 0x5A], .eorImm 0x5A), ([0x4A], .lsrAcc), ([0x4C, 0x34, 0x12], .jmpAbs 0x1234),
    ([0x4D, 0x34, 0x12], .eorAbs 0x1234), ([0x4E, 0x34, 0x12], .lsrAbs 0x1234)] = true := by decide

theorem test_decode_row5 : allRead [
    ([0x50, 0x5A], .bvc 0x5A), ([0x51, 0x5A], .eorIndY 0x5A), ([0x55, 0x5A], .eorZpX 0x5A),
    ([0x56, 0x5A], .lsrZpX 0x5A), ([0x58], .cli), ([0x59, 0x34, 0x12], .eorAbsY 0x1234),
    ([0x5D, 0x34, 0x12], .eorAbsX 0x1234), ([0x5E, 0x34, 0x12], .lsrAbsX 0x1234)] = true := by decide

theorem test_decode_row6 : allRead [
    ([0x60], .rts), ([0x61, 0x5A], .adcIndX 0x5A), ([0x65, 0x5A], .adcZp 0x5A), ([0x66, 0x5A], .rorZp 0x5A),
    ([0x68], .pla), ([0x69, 0x5A], .adcImm 0x5A), ([0x6A], .rorAcc), ([0x6C, 0x34, 0x12], .jmpInd 0x1234),
    ([0x6D, 0x34, 0x12], .adcAbs 0x1234), ([0x6E, 0x34, 0x12], .rorAbs 0x1234)] = true := by decide

theorem test_decode_row7 : allRead [
    ([0x70, 0x5A], .bvs 0x5A), ([0x71, 0x5A], .adcIndY 0x5A), ([0x75, 0x5A], .adcZpX 0x5A),
    ([0x76, 0x5A], .rorZpX 0x5A), ([0x78], .sei), ([0x79, 0x34, 0x12], .adcAbsY 0x1234),
    ([0x7D, 0x34, 0x12], .adcAbsX 0x1234), ([0x7E, 0x34, 0x12], .rorAbsX 0x1234)] = true := by decide

theorem test_decode_row8 : allRead [
    ([0x81, 0x5A], .staIndX 0x5A), ([0x84, 0x5A], .styZp 0x5A), ([0x85, 0x5A], .staZp 0x5A),
    ([0x86, 0x5A], .stxZp 0x5A), ([0x88], .dey), ([0x8A], .txa), ([0x8C, 0x34, 0x12], .styAbs 0x1234),
    ([0x8D, 0x34, 0x12], .staAbs 0x1234), ([0x8E, 0x34, 0x12], .stxAbs 0x1234)] = true := by decide

theorem test_decode_row9 : allRead [
    ([0x90, 0x5A], .bcc 0x5A), ([0x91, 0x5A], .staIndY 0x5A), ([0x94, 0x5A], .styZpX 0x5A),
    ([0x95, 0x5A], .staZpX 0x5A), ([0x96, 0x5A], .stxZpY 0x5A), ([0x98], .tya),
    ([0x99, 0x34, 0x12], .staAbsY 0x1234), ([0x9A], .txs), ([0x9D, 0x34, 0x12],
      .staAbsX 0x1234)] = true := by decide

theorem test_decode_rowA : allRead [
    ([0xA0, 0x5A], .ldyImm 0x5A), ([0xA1, 0x5A], .ldaIndX 0x5A), ([0xA2, 0x5A], .ldxImm 0x5A),
    ([0xA4, 0x5A], .ldyZp 0x5A), ([0xA5, 0x5A], .ldaZp 0x5A), ([0xA6, 0x5A], .ldxZp 0x5A), ([0xA8], .tay),
    ([0xA9, 0x5A], .ldaImm 0x5A), ([0xAA], .tax), ([0xAC, 0x34, 0x12], .ldyAbs 0x1234),
    ([0xAD, 0x34, 0x12], .ldaAbs 0x1234), ([0xAE, 0x34, 0x12], .ldxAbs 0x1234)] = true := by decide

theorem test_decode_rowB : allRead [
    ([0xB0, 0x5A], .bcs 0x5A), ([0xB1, 0x5A], .ldaIndY 0x5A), ([0xB4, 0x5A], .ldyZpX 0x5A),
    ([0xB5, 0x5A], .ldaZpX 0x5A), ([0xB6, 0x5A], .ldxZpY 0x5A), ([0xB8], .clv),
    ([0xB9, 0x34, 0x12], .ldaAbsY 0x1234), ([0xBA], .tsx), ([0xBC, 0x34, 0x12], .ldyAbsX 0x1234),
    ([0xBD, 0x34, 0x12], .ldaAbsX 0x1234), ([0xBE, 0x34, 0x12], .ldxAbsY 0x1234)] = true := by decide

theorem test_decode_rowC : allRead [
    ([0xC0, 0x5A], .cpyImm 0x5A), ([0xC1, 0x5A], .cmpIndX 0x5A), ([0xC4, 0x5A], .cpyZp 0x5A),
    ([0xC5, 0x5A], .cmpZp 0x5A), ([0xC6, 0x5A], .decZp 0x5A), ([0xC8], .iny), ([0xC9, 0x5A], .cmpImm 0x5A),
    ([0xCA], .dex), ([0xCC, 0x34, 0x12], .cpyAbs 0x1234), ([0xCD, 0x34, 0x12], .cmpAbs 0x1234),
    ([0xCE, 0x34, 0x12], .decAbs 0x1234)] = true := by decide

theorem test_decode_rowD : allRead [
    ([0xD0, 0x5A], .bne 0x5A), ([0xD1, 0x5A], .cmpIndY 0x5A), ([0xD5, 0x5A], .cmpZpX 0x5A),
    ([0xD6, 0x5A], .decZpX 0x5A), ([0xD8], .cld), ([0xD9, 0x34, 0x12], .cmpAbsY 0x1234),
    ([0xDD, 0x34, 0x12], .cmpAbsX 0x1234), ([0xDE, 0x34, 0x12], .decAbsX 0x1234)] = true := by decide

theorem test_decode_rowE : allRead [
    ([0xE0, 0x5A], .cpxImm 0x5A), ([0xE1, 0x5A], .sbcIndX 0x5A), ([0xE4, 0x5A], .cpxZp 0x5A),
    ([0xE5, 0x5A], .sbcZp 0x5A), ([0xE6, 0x5A], .incZp 0x5A), ([0xE8], .inx), ([0xE9, 0x5A], .sbcImm 0x5A),
    ([0xEA], .nop), ([0xEC, 0x34, 0x12], .cpxAbs 0x1234), ([0xED, 0x34, 0x12], .sbcAbs 0x1234),
    ([0xEE, 0x34, 0x12], .incAbs 0x1234)] = true := by decide

theorem test_decode_rowF : allRead [
    ([0xF0, 0x5A], .beq 0x5A), ([0xF1, 0x5A], .sbcIndY 0x5A), ([0xF5, 0x5A], .sbcZpX 0x5A),
    ([0xF6, 0x5A], .incZpX 0x5A), ([0xF8], .sed), ([0xF9, 0x34, 0x12], .sbcAbsY 0x1234),
    ([0xFD, 0x34, 0x12], .sbcAbsX 0x1234), ([0xFE, 0x34, 0x12], .incAbsX 0x1234)] = true := by decide

/-- An operand word with its bytes in the other order is another instruction (R82). -/
theorem test_decode_low_byte_first : decode [0x6C, 0xFF, 0x40] = .ok (.jmpInd 0x40FF, []) := by decide

/-- The decoder's rejections, by name (R86, R102). -/
theorem test_decode_rejects :
    decode [0x02, 0xA9] = .error (.unimplementedOpcode 0x02) ∧
    decode [0xFF] = .error (.unimplementedOpcode 0xFF) ∧
    decode [] = .error .noBytes ∧ decode [0xAD, 0x34] = .error (.truncated 0xAD) ∧
    decodeTableWord 8 0x80 = none := by decide

/-- A table word with bits above `nbits` is cut to them (operand bytes of zeros). -/
theorem test_decode_table_word_cut : decodeTableWord 8 0x1234AD = some (.ldaAbs 0x0000) := by decide

/-! ### WellFormed: each check refuses an ill-formed term -/

/-- A record whose AddressingMode is not its form's (R85). -/
theorem test_wellFormed_refuses_mode :
    OpRecord.wellFormed ⟨0xA9, .lda, .immediate, .zeroPage, 2, 2⟩ = false := by decide

/-- A record whose length is not its form's (R81). -/
theorem test_wellFormed_refuses_length :
    OpRecord.wellFormed ⟨0xA9, .lda, .immediate, .immediate, 3, 2⟩ = false := by decide

/-- The spec's own record for the same byte passes. -/
theorem test_wellFormed_accepts :
    OpRecord.wellFormed ⟨0xA9, .lda, .immediate, .immediate, 2, 2⟩ = true := by decide

/-- An image of 0x8000 bytes is too long, one of 0x7FFF is not (R291, H4). -/
theorem test_imageFits_refuses : imageFits (List.replicate 0x8000 0) = false := by
  rw [imageFits, List.length_replicate]; decide
theorem test_imageFits_accepts : imageFits (List.replicate 0x7FFF 0) = true := by
  rw [imageFits, List.length_replicate]; decide

/-! ### The assembler's view -/

/-- R88's examples, and a branch by its target (P1's `BNE loop`). -/
theorem test_assembler_text :
    assemblerText 0x8000 (.ldaImm 0x05) = "LDA #$05" ∧ assemblerText 0x8000 (.ldxZpY 0x10) = "LDX $10,Y" ∧
    assemblerText 0x8000 (.ldaAbsX 0x1234) = "LDA $1234,X" ∧
    assemblerText 0x8000 (.ldaIndX 0x20) = "LDA ($20,X)" ∧
    assemblerText 0x8000 (.ldaIndY 0x20) = "LDA ($20),Y" ∧ assemblerText 0x8000 .aslAcc = "ASL A" ∧
    assemblerText 0x8000 .inx = "INX" ∧ assemblerText 0x8000 (.jmpInd 0x40FF) = "JMP ($40FF)" ∧
    assemblerText 0x800A (.bne 0xF9) = "BNE $8005" := by decide

/-- R89 at the ends of its range. -/
theorem test_branch_offset :
    branchOffset 0x800A 0x8005 = some 0xF9 ∧ branchOffset 0x8000 0x8081 = some 0x7F ∧
    branchOffset 0x8000 0x8082 = none ∧ branchOffset 0x8000 0x7F82 = some 0x80 ∧
    branchOffset 0x8000 0x7F81 = none := by decide

/-! ### One step: the vectors of 95_test_vectors.md -/

/-- The state the vectors start from: after reset, at 0x8000, running. -/
def start : State := { State.reset with pc := 0x8000, run := .running }

/-- `s` with these bytes of memory set. -/
def poked (s : State) (cells : List (Addr × Byte)) : State := cells.foldl (fun s c => hostPoke s c.1 c.2) s

/-- One step from `s`, with `bytes` at PC, ends with the registers and the run state of `t`, and with these bytes
in memory. -/
def ends (bytes : List Byte) (s t : State) (cells : List (Addr × Byte)) : Bool :=
  match step (s.placeAtFetch bytes) with
  | .next u =>
    u.a == t.a && u.x == t.x && u.y == t.y && u.sp == t.sp && u.p == t.p && u.pc == t.pc && u.run == t.run &&
      u.cfg == t.cfg && u.mem.wf && cells.all fun c => u.mem.read c.1 == c.2
  | .fault _ => false
  | .refused _ => false

/-- The chip's stack order and the literal PC comparison, set on a state. -/
def chipOrder (s : State) : State := { s with cfg := { s.cfg with stackOrder := .writeThenDec } }
def comparing (s : State) : State := { s with cfg := { s.cfg with pcCompareAdvance := true } }

theorem test_E2_adc :
    ends [0x69, 0x10] { start with a := 0x50 } { start with a := 0x60, pc := 0x8002 } [] = true := by decide

theorem test_A15_adc_decimal :
    ends [0x69, 0x01] { start with a := 0x09, p := 0x28 } { start with a := 0x0A, p := 0x28, pc := 0x8002 } [] = true := by
  decide

theorem test_A6_adc_overflow :
    ends [0x69, 0x80] { start with a := 0x80 } { start with a := 0x00, p := 0x63, pc := 0x8002 } [] = true := by
  decide

theorem test_A9_sbc_borrow_in :
    ends [0xE9, 0x10] { start with a := 0x50 } { start with a := 0x3F, p := 0x21, pc := 0x8002 } [] = true := by
  decide

theorem test_A12_sbc_overflow :
    ends [0xE9, 0xFF] { start with a := 0x7F, p := 0x21 } { start with a := 0x80, p := 0xE0, pc := 0x8002 } [] = true := by
  decide

theorem test_A17_and :
    ends [0x29, 0x8F] { start with a := 0xF0 } { start with a := 0x80, p := 0xA0, pc := 0x8002 } [] = true := by
  decide

theorem test_A18_ora :
    ends [0x09, 0x80] { start with a := 0x01 } { start with a := 0x81, p := 0xA0, pc := 0x8002 } [] = true := by
  decide

theorem test_A20_eor :
    ends [0x49, 0xFF] { start with a := 0xFF } { start with a := 0x00, p := 0x22, pc := 0x8002 } [] = true := by
  decide

theorem test_A22_cmp :
    ends [0xC9, 0x05] { start with a := 0x05 } { start with a := 0x05, p := 0x23, pc := 0x8002 } [] = true := by
  decide

theorem test_A24_cmp_below :
    ends [0xC9, 0x06] { start with a := 0x05 } { start with a := 0x05, p := 0xA0, pc := 0x8002 } [] = true := by
  decide

theorem test_A25_cpx :
    ends [0xE0, 0xFF] start { start with p := 0x20, pc := 0x8002 } [] = true := by decide

theorem test_A26_cpy :
    ends [0xC0, 0x01] { start with y := 0x80 } { start with y := 0x80, p := 0x21, pc := 0x8002 } [] = true := by
  decide

theorem test_A28_bit :
    ends [0x24, 0x10] (poked { start with a := 0x01 } [(0x0010, 0xC0)])
      { start with a := 0x01, p := 0xE2, pc := 0x8002 } [] = true := by decide

theorem test_A29_bit_abs :
    ends [0x2C, 0x00, 0x20] (poked { start with a := 0x40 } [(0x2000, 0x40)])
      { start with a := 0x40, p := 0x60, pc := 0x8003 } [] = true := by decide

theorem test_E6_lda_zeroPageX_wraps :
    ends [0xB5, 0xFF] (poked { start with x := 0x02 } [(0x0001, 0xAB), (0x0101, 0xCD)])
      { start with a := 0xAB, x := 0x02, p := 0xA0, pc := 0x8002 } [] = true := by decide

theorem test_E7_lda_indirectY_wraps :
    ends [0xB1, 0xFF] (poked start [(0x0000, 0x12), (0x0100, 0x34), (0x1200, 0x5A)])
      { start with a := 0x5A, pc := 0x8002 } [] = true := by decide

theorem test_M12_lda_indirectX_wraps :
    ends [0xA1, 0xFE] (poked { start with x := 0x01 } [(0x00FF, 0x34), (0x0000, 0x12), (0x1234, 0x5A)])
      { start with a := 0x5A, x := 0x01, pc := 0x8002 } [] = true := by decide

theorem test_L3_ldx :
    ends [0xB6, 0xFF] (poked { start with y := 0x02 } [(0x0001, 0x7F)])
      { start with x := 0x7F, y := 0x02, pc := 0x8002 } [] = true := by decide

theorem test_L4_ldy :
    ends [0xA0, 0x00] { start with p := 0xA0 } { start with p := 0x22, pc := 0x8002 } [] = true := by decide

theorem test_L5_sta :
    ends [0x95, 0xF0] { start with a := 0x99, x := 0x20 } { start with a := 0x99, x := 0x20, pc := 0x8002 }
      [(0x0010, 0x99)] = true := by decide

theorem test_L6_sta_indirectY :
    ends [0x91, 0x10] (poked { start with a := 0x01, y := 0x05 } [(0x0011, 0x20)])
      { start with a := 0x01, y := 0x05, pc := 0x8002 } [(0x2005, 0x01)] = true := by decide

theorem test_L7_stx :
    ends [0x96, 0xFF] { start with x := 0x07, y := 0x02 } { start with x := 0x07, y := 0x02, pc := 0x8002 }
      [(0x0001, 0x07)] = true := by decide

theorem test_L8_sty :
    ends [0x8C, 0x00, 0x02] { start with y := 0x09 } { start with y := 0x09, pc := 0x8003 } [(0x0200, 0x09)]
      = true := by decide

theorem test_L9_tax :
    ends [0xAA] { start with x := 0x77 } { start with x := 0x00, p := 0x22, pc := 0x8001 } [] = true := by decide

theorem test_tay :
    ends [0xA8] { start with a := 0x80 } { start with a := 0x80, y := 0x80, p := 0xA0, pc := 0x8001 } [] = true := by
  decide

theorem test_L12_txa :
    ends [0x8A] { start with x := 0x81 } { start with a := 0x81, x := 0x81, p := 0xA0, pc := 0x8001 } [] = true := by
  decide

theorem test_tya :
    ends [0x98] { start with a := 0x01 } { start with a := 0x00, p := 0x22, pc := 0x8001 } [] = true := by decide

theorem test_L10_tsx :
    ends [0xBA] start { start with x := 0xFD, p := 0xA0, pc := 0x8001 } [] = true := by decide

theorem test_L11_txs :
    ends [0x9A] start { start with sp := 0x00, pc := 0x8001 } [] = true := by decide

theorem test_S2_asl :
    ends [0x0A] { start with a := 0x81, p := 0x21 } { start with a := 0x02, p := 0x21, pc := 0x8001 } [] = true := by
  decide

theorem test_S12_asl_mem :
    ends [0x06, 0x10] (poked start [(0x0010, 0xC1)]) { start with p := 0xA1, pc := 0x8002 } [(0x0010, 0x82)]
      = true := by decide

theorem test_S5_lsr :
    ends [0x4A] { start with a := 0x81, p := 0x21 } { start with a := 0x40, p := 0x21, pc := 0x8001 } [] = true := by
  decide

theorem test_S7_rol :
    ends [0x2A] { start with a := 0x81, p := 0x21 } { start with a := 0x03, p := 0x21, pc := 0x8001 } [] = true := by
  decide

theorem test_S10_ror :
    ends [0x6A] { start with a := 0x81, p := 0x21 } { start with a := 0xC0, p := 0xA1, pc := 0x8001 } [] = true := by
  decide

theorem test_S13_ror_mem :
    ends [0x76, 0xFF] (poked { start with x := 0x02, p := 0x21 } [(0x0001, 0x02)])
      { start with x := 0x02, p := 0xA0, pc := 0x8002 } [(0x0001, 0x81)] = true := by decide

theorem test_S14_inc :
    ends [0xE6, 0x10] (poked start [(0x0010, 0xFF)]) { start with p := 0x22, pc := 0x8002 } [(0x0010, 0x00)]
      = true := by decide

theorem test_S17_dec_wraps :
    ends [0xDE, 0xFF, 0xFF] (poked { start with x := 0x01 } [(0x0000, 0x01)])
      { start with x := 0x01, p := 0x22, pc := 0x8003 } [(0x0000, 0x00)] = true := by decide

theorem test_S18_inx :
    ends [0xE8] { start with x := 0xFF } { start with x := 0x00, p := 0x22, pc := 0x8001 } [] = true := by decide

theorem test_S19_iny :
    ends [0xC8] { start with y := 0x7F } { start with y := 0x80, p := 0xA0, pc := 0x8001 } [] = true := by decide

theorem test_S20_dex :
    ends [0xCA] start { start with x := 0xFF, p := 0xA0, pc := 0x8001 } [] = true := by decide

theorem test_S21_dey :
    ends [0x88] { start with y := 0x01 } { start with y := 0x00, p := 0x22, pc := 0x8001 } [] = true := by decide

theorem test_K3_pha_wraps :
    ends [0x48] { start with a := 0x11, sp := 0x00 } { start with a := 0x11, sp := 0xFF, pc := 0x8001 }
      [(0x01FF, 0x11), (0x0100, 0x00)] = true := by decide

theorem test_K3_pha_chip_order :
    ends [0x48] (chipOrder { start with a := 0x11, sp := 0x00 })
      (chipOrder { start with a := 0x11, sp := 0xFF, pc := 0x8001 }) [(0x0100, 0x11), (0x01FF, 0x00)]
      = true := by decide

theorem test_K4_pla_wraps :
    ends [0x68] (poked { start with a := 0x77, sp := 0xFF } [(0x0100, 0x80)])
      { start with a := 0x00, p := 0x22, sp := 0x00, pc := 0x8001 } [] = true := by decide

theorem test_K4_pla_chip_order :
    ends [0x68] (poked (chipOrder { start with a := 0x77, sp := 0xFF }) [(0x0100, 0x80)])
      (chipOrder { start with a := 0x80, p := 0xA0, sp := 0x00, pc := 0x8001 }) [] = true := by decide

theorem test_K5_php :
    ends [0x08] { start with p := 0xC3 } { start with p := 0xC3, sp := 0xFC, pc := 0x8001 } [(0x01FC, 0xF3)]
      = true := by decide

theorem test_K8_php_status_zero :
    ends [0x08] { start with p := 0x00, sp := 0x00 } { start with p := 0x00, sp := 0xFF, pc := 0x8001 }
      [(0x01FF, 0x30)] = true := by decide

theorem test_K6_plp :
    ends [0x28] (poked { start with sp := 0xFC } [(0x01FC, 0xFF)])
      { start with p := 0xEF, sp := 0xFD, pc := 0x8001 } [] = true := by decide

theorem test_K7_plp_zero :
    ends [0x28] { start with sp := 0xFC, p := 0xFF } { start with p := 0x20, sp := 0xFD, pc := 0x8001 } [] = true := by
  decide

theorem test_J1_jmp :
    ends [0x4C, 0x34, 0x12] start { start with pc := 0x1234 } [] = true := by decide

theorem test_J3_jmp_indirect_page :
    ends [0x6C, 0xFF, 0xFF] (poked start [(0xFFFF, 0x34), (0xFF00, 0x12), (0x0000, 0x56)])
      { start with pc := 0x1234 } [] = true := by decide

theorem test_J4_jsr :
    ends [0x20, 0x30, 0x40] { start with pc := 0x0600 } { start with sp := 0xFB, pc := 0x4030 }
      [(0x01FC, 0x06), (0x01FB, 0x02)] = true := by decide

theorem test_jsr_over_its_operand :
    ends [0x20, 0x03, 0x00] { start with pc := 0x01FA, sp := 0xFD } { start with sp := 0xFB, pc := 0x01FC }
      [(0x01FC, 0x01), (0x01FB, 0xFC)] = true := by decide

theorem test_J6_rts_wraps :
    ends [0x60] (poked { start with sp := 0xFB } [(0x01FB, 0xFF), (0x01FC, 0xFF)]) { start with pc := 0x0000 }
      [] = true := by decide

theorem test_J7_rti :
    ends [0x40] (poked { start with sp := 0xFA } [(0x01FA, 0x21), (0x01FC, 0x90)])
      { start with p := 0x21, pc := 0x9000 } [] = true := by decide

theorem test_J8_rti_chip_order :
    ends [0x40] (poked (chipOrder { start with sp := 0xF9 }) [(0x01FA, 0x21), (0x01FC, 0x90)])
      (chipOrder { start with p := 0x21, pc := 0x9000, sp := 0xFC }) [] = true := by decide

theorem test_J9_brk :
    ends [0x00] { start with pc := 0x1234 } { start with pc := 0x1235, run := .halted .brk } [] = true := by
  decide

theorem test_B4_bne_backwards :
    ends [0xD0, 0x80] start { start with pc := 0x7F82 } [] = true := by decide

theorem test_B8_bne_not_taken :
    ends [0xD0, 0x80] { start with p := 0x22 } { start with p := 0x22, pc := 0x8002 } [] = true := by decide

theorem test_B9_beq_wraps :
    ends [0xF0, 0x10] { start with pc := 0xFFF0, p := 0x22 } { start with p := 0x22, pc := 0x0002 } [] = true := by
  decide

theorem test_B10_bcc_wraps_back :
    ends [0x90, 0xFC] { start with pc := 0x0000 } { start with pc := 0xFFFE } [] = true := by decide

theorem test_B11_bcs_not_taken :
    ends [0xB0, 0x05] start { start with pc := 0x8002 } [] = true := by decide

theorem test_B12_bmi :
    ends [0x30, 0x05] { start with p := 0xA0 } { start with p := 0xA0, pc := 0x8007 } [] = true := by decide

theorem test_B13_bpl_not_taken :
    ends [0x10, 0x05] { start with p := 0xA0 } { start with p := 0xA0, pc := 0x8002 } [] = true := by decide

theorem test_B14_bvc :
    ends [0x50, 0x05] start { start with pc := 0x8007 } [] = true := by decide

theorem test_B15_bvs_not_taken :
    ends [0x70, 0x05] start { start with pc := 0x8002 } [] = true := by decide

theorem test_G1_clc :
    ends [0x18] { start with p := 0x21 } { start with p := 0x20, pc := 0x8001 } [] = true := by decide

theorem test_G2_sec :
    ends [0x38] start { start with p := 0x21, pc := 0x8001 } [] = true := by decide

theorem test_G3_cli :
    ends [0x58] { start with p := 0x24 } { start with p := 0x20, pc := 0x8001 } [] = true := by decide

theorem test_G4_sei :
    ends [0x78] start { start with p := 0x24, pc := 0x8001 } [] = true := by decide

theorem test_G5_cld :
    ends [0xD8] { start with p := 0x28 } { start with p := 0x20, pc := 0x8001 } [] = true := by decide

theorem test_G6_sed :
    ends [0xF8] start { start with p := 0x28, pc := 0x8001 } [] = true := by decide

theorem test_G7_clv :
    ends [0xB8] { start with p := 0x60 } { start with p := 0x20, pc := 0x8001 } [] = true := by decide

theorem test_F3_nop_at_the_top :
    ends [0xEA] { start with pc := 0xFFFF } { start with pc := 0x0000 } [] = true := by decide

theorem test_F5_lda_over_the_top :
    ends [0xAD, 0x00, 0x00] { start with pc := 0xFFFE } { start with p := 0x22, pc := 0x0001 } [] = true := by
  decide

theorem test_F6_jmp_to_pcb :
    ends [0x4C, 0x01, 0x80] start { start with pc := 0x8001 } [] = true := by decide

theorem test_F7_jmp_to_pcb_comparing :
    ends [0x4C, 0x01, 0x80] (comparing start) (comparing { start with pc := 0x8003 }) [] = true := by decide

theorem test_F9_jsr_to_pcb_comparing :
    ends [0x20, 0x01, 0x80] (comparing start) (comparing { start with sp := 0xFB, pc := 0x8003 })
      [(0x01FC, 0x80), (0x01FB, 0x02)] = true := by decide

theorem test_F10_bne_to_pcb_comparing :
    ends [0xD0, 0xFF] (comparing start) (comparing { start with pc := 0x8002 }) [] = true := by decide

theorem test_F2_illegal_at_the_top :
    ends [0xFF] { start with pc := 0xFFFF }
      { start with pc := 0x0000, run := .halted (.unimplementedOpcode 0xFF 0xFFFF) } [] = true := by decide

/-! ### Reset, the host operations and the interface -/

/-- The answer is this next state, as a Bool. -/
def answers (r : Result) (t : State) : Bool :=
  match r with
  | .next u => decide (u = t)
  | .fault _ => false
  | .refused _ => false

theorem answers_iff (r : Result) (t : State) : answers r t = true ↔ r = .next t := by
  cases r <;> simp [answers]

/-- H2: construct, then run: the BRK at 0x0000 halts. With no fuel the run is not finished. -/
theorem test_H2_run :
    hostRun 1 State.construct =
      .finished .brk { State.construct with pc := 0x0001, run := .halted .brk } ∧
    hostRun 0 State.construct = .notFinished { State.construct with run := .running } := by decide

/-- E12: load, reset and run `LDA #$00; BRK`. -/
theorem test_E12_loadAndRun :
    loadAndRun [0xA9, 0x00, 0x00] 3 State.construct =
      .finished .brk
        { a := 0, x := 0, y := 0, sp := 0xFD, p := 0x22, pc := 0x8003,
          mem := [(0x8000, 0xA9), (0xFFFD, 0x80)], run := .halted .brk, cfg := {} } := by decide

/-- H6 and H5: poke and peek; reset keeps memory and takes PC from the vector. -/
theorem test_H6_poke_peek : hostPeek (hostPoke State.construct 0x9000 0x02) 0x9000 = 0x02 := by decide
theorem test_H5_reset :
    hostReset (poked { start with a := 0x7F, p := 0xE3 } [(0x0200, 0x0F), (0xFFFC, 0x34), (0xFFFD, 0x12)]) =
      { start with pc := 0x1234, mem := [(0x0200, 0x0F), (0xFFFC, 0x34), (0xFFFD, 0x12)] } := by decide

/-- Writing what an unlisted address reads as takes the entry away. -/
theorem test_memory_canonical :
    (hostPoke (hostPoke (hostPoke start 0xFFFF 0x02) 0x0000 0x01) 0xFFFF 0x00).mem = [(0x0000, 0x01)] := by decide

/-- The first step after reset, with a word placed, runs that instruction: LDA #$05. -/
theorem test_withFetchWord :
    answers (step (State.reset.withFetchWord 16 0x05A9))
      { State.reset with a := 0x05, pc := 0x0002, mem := [(0, 0xA9), (1, 0x05)], run := .running } = true := by
  decide

/-! ### Witnesses: the hypotheses of every statement that has some can be met -/

/-- BrkHalts and NopOnlyAdvances, at the top of memory. -/
theorem witness_BrkHalts : start.run = .running ∧ start.mem.read start.pc = 0x00 := by decide
def nopAtTop : State := poked { start with pc := 0xFFFF } [(0xFFFF, 0xEA)]
theorem witness_NopOnlyAdvances : nopAtTop.run = .running ∧ nopAtTop.mem.read nopAtTop.pc = 0xEA := by decide

/-- BranchesAddTheirOffset: a state where C, Z, N and V are clear, and one where they are set. -/
theorem witness_BranchesAddTheirOffset :
    (∀ k ∈ [bitC, bitZ, bitN, bitV], bit start k = false) ∧
    (∀ k ∈ [bitC, bitZ, bitN, bitV], bit { start with p := 0xE3 } k = true) := by decide

/-- ReturnFollowsTheCall: example E9's call, the state after it, and the state at its RTS, in both orders. -/
def callSite : State := poked { start with pc := 0x0600 } [(0x0600, 0x20), (0x0601, 0x30), (0x0602, 0x40)]
def inCallee (s : State) (hiAt loAt : Addr) : State :=
  { poked s [(hiAt, 0x06), (loAt, 0x02), (0x4032, 0x60)] with pc := 0x4032, sp := 0xFB, p := 0x22 }
theorem witness_ReturnFollowsTheCall :
    callSite.run = .running ∧ bytesAtPC callSite = [0x20, lo 0x4030, hi 0x4030] ∧
    (0x4030 : Addr) ≠ callSite.pc + 1 ∧
    (∀ k, k < 2 → BitVec.ofNat 16 (pushedAt callSite k) ≠ callSite.pc + 1 ∧
      BitVec.ofNat 16 (pushedAt callSite k) ≠ callSite.pc + 2) ∧
    (let t := callSubroutine 0x4030 { callSite with pc := 0x0601 }
     let u := inCallee callSite 0x01FC 0x01FB
     answers (step callSite) t = true ∧ u.run = .running ∧ u.cfg = t.cfg ∧ u.sp = t.sp ∧
       u.mem.read u.pc = 0x60 ∧ ∀ k, k < 2 → rd u (pushedAt callSite k) = rd t (pushedAt callSite k)) := by decide
theorem witness_ReturnFollowsTheCall_chipOrder :
    (∀ k, k < 2 → BitVec.ofNat 16 (pushedAt (chipOrder callSite) k) ≠ callSite.pc + 1 ∧
      BitVec.ofNat 16 (pushedAt (chipOrder callSite) k) ≠ callSite.pc + 2) ∧
    (let t := callSubroutine 0x4030 { chipOrder callSite with pc := 0x0601 }
     let u := inCallee (chipOrder callSite) 0x01FD 0x01FC
     answers (step (chipOrder callSite)) t = true ∧ u.run = .running ∧ u.cfg = t.cfg ∧ u.sp = t.sp ∧
       u.mem.read u.pc = 0x60 ∧ ∀ k, k < 2 → rd u (pushedAt (chipOrder callSite) k) =
         rd t (pushedAt (chipOrder callSite) k)) := by decide

/-- StackOrderKeepsTheStackPointer and OnlyControlTransfersWritePC: instructions outside and inside the lists. -/
theorem witness_StackOrderKeepsTheStackPointer :
    Instr.mnemonic .pla ∉ [Mnemonic.pha, .php, .jsr] ∧ Instr.mnemonic .pha ∈ [Mnemonic.pha, .php, .jsr] := by
  decide
theorem witness_OnlyControlTransfersWritePC :
    Instr.mnemonic .brk ∉ controlTransfers ∧ Instr.mnemonic .rti ∈ controlTransfers := by decide

/-- CanonicalMemoryIsExtensional, with entries at both ends of memory. -/
theorem witness_CanonicalMemoryIsExtensional :
    ∃ m n : Memory, m.wf = true ∧ n.wf = true ∧ (∀ a : Addr, m.read a = n.read a) ∧
      m = [(0x0000, 0x01), (0xFFFF, 0x02)] :=
  ⟨[(0x0000, 0x01), (0xFFFF, 0x02)], [(0x0000, 0x01), (0xFFFF, 0x02)], by decide, by decide, fun _ => rfl, rfl⟩

/-- ResolvingNoAddressingHalts: the four forms recorded as NoAddressing. -/
theorem witness_ResolvingNoAddressingHalts :
    ∀ i ∈ [Instr.inx, .aslAcc, .bne 0x80, .jmpInd 0x40FF], i.operand.asm.mode = .noAddressing := by decide

/-- EncodeAfterDecode and OpcodeTableAgreesWithTheDecoder: one instruction of each format, and the last record. -/
theorem witness_EncodeAfterDecode :
    decode [0x00, 0xFF] = .ok (.brk, [0xFF]) ∧ decode [0xA9, 0xFF] = .ok (.ldaImm 0xFF, []) ∧
    decode [0xFE, 0xFF, 0x00, 0x02] = .ok (.incAbsX 0x00FF, [0x02]) := by decide
theorem witness_OpcodeTableAgreesWithTheDecoder :
    decode [0x00, 0x00, 0x00] = .ok (.brk, [0x00, 0x00]) ∧
    decode [0x69, 0xFF, 0x12] = .ok (.adcImm 0xFF, [0x12]) ∧
    decode [0xFE, 0xFF, 0xFF] = .ok (.incAbsX 0xFFFF, []) := by decide

/-- IllegalBytesAreTheListed105: the first and the last byte of either kind. -/
theorem witness_IllegalBytesAreTheListed105 :
    (0x02 : Byte) ∈ illegalBytes ∧ (0xFF : Byte) ∈ illegalBytes ∧ (0x00 : Byte) ∉ illegalBytes ∧
    (0xFE : Byte) ∉ illegalBytes := by decide

/-- StepRunsTheDecodedInstruction: an instruction that straddles the top of memory (F4). -/
def straddling : State := poked { start with pc := 0xFFFF } [(0xFFFF, 0xA9), (0x0000, 0x77)]
theorem witness_StepRunsTheDecodedInstruction :
    straddling.run = .running ∧ decode (bytesAtPC straddling) = .ok (.ldaImm 0x77, [0x00]) := by decide

/-- DefaultAdvance: both clauses, the first at the top of memory, the second for a jump to `pcb`. -/
def jumpToPcb : State := poked start [(0x8000, 0x4C), (0x8001, 0x01), (0x8002, 0x80)]
theorem witness_DefaultAdvance :
    (straddling.run = .running ∧ straddling.cfg.pcCompareAdvance = false ∧
      decode (bytesAtPC straddling) = .ok (.ldaImm 0x77, [0x00]) ∧
      answers (step straddling) { straddling with a := 0x77, pc := 0x0001 } = true ∧
      (Instr.ldaImm 0x77).mnemonic ∉ controlTransfers) ∧
    (jumpToPcb.run = .running ∧ jumpToPcb.cfg.pcCompareAdvance = false ∧
      decode (bytesAtPC jumpToPcb) = .ok (.jmpAbs 0x8001, []) ∧
      answers (step jumpToPcb) { jumpToPcb with pc := 0x8001 } = true ∧
      (Instr.jmpAbs 0x8001).mnemonic ∈ controlTransfers) := by decide

/-- CompareAdvanceDiffersOnlyAtPcb: the jump to `pcb`, where the two differ, and an RTS, where they cannot. -/
def returning : State := poked { start with sp := 0xFB } [(0x8000, 0x60), (0x01FC, 0x80)]
theorem witness_CompareAdvanceDiffersOnlyAtPcb :
    ((comparing jumpToPcb).run = .running ∧ (comparing jumpToPcb).cfg.pcCompareAdvance = true ∧
      decode (bytesAtPC (comparing jumpToPcb)) = .ok (.jmpAbs 0x8001, []) ∧
      answers (step jumpToPcb) { jumpToPcb with pc := 0x8001 } = true ∧
      answers (step (comparing jumpToPcb)) { comparing jumpToPcb with pc := 0x8003 } = true) ∧
    ((comparing returning).run = .running ∧ decode (bytesAtPC (comparing returning)) = .ok (.rts, [0x00, 0x00]) ∧
      answers (step returning) { returning with pc := 0x8001, sp := 0xFD } = true ∧
      answers (step (comparing returning)) { comparing returning with pc := 0x8001, sp := 0xFD } = true) := by
  decide

/-- UnknownOpcodeHalts, FaultsArePrecise and the third outcome of RunningStepsOrHaltsByName: F2. -/
def illegalAtTop : State := poked { start with pc := 0xFFFF } [(0xFFFF, 0xFF)]
theorem witness_UnknownOpcodeHalts :
    illegalAtTop.run = .running ∧ illegalAtTop.mem.read illegalAtTop.pc ∈ illegalBytes := by decide
theorem witness_FaultsArePrecise :
    illegalAtTop.run = .running ∧
    answers (step illegalAtTop)
      { illegalAtTop with pc := 0x0000, run := .halted (.unimplementedOpcode 0xFF 0xFFFF) } = true ∧
    (HaltCause.unimplementedOpcode 0xFF 0xFFFF).isFault = true := by decide

/-- HaltedTakesNoStep: the state after reset. -/
theorem witness_HaltedTakesNoStep : State.reset.run = .halted .notStarted := by decide

/-- RunningStepsOrHaltsByName: its other two outcomes. -/
theorem witness_RunningStepsOrHaltsByName :
    (straddling.run = .running ∧ answers (step straddling) { straddling with a := 0x77, pc := 0x0001 } = true) ∧
    (start.run = .running ∧ answers (step start) { start with pc := 0x8001, run := .halted .brk } = true) := by
  decide

/-- StepKeepsMemoryCanonical: a step that stores, and one that stores what an unlisted address reads as. -/
def storing (v : Byte) : State := poked { start with a := v } [(0x0000, 0x11), (0x8000, 0x85)]
theorem witness_StepKeepsMemoryCanonical :
    ((storing 0x22).wf = true ∧ answers (step (storing 0x22))
      { storing 0x22 with pc := 0x8002, mem := [(0x0000, 0x22), (0x8000, 0x85)] } = true) ∧
    ((storing 0x00).wf = true ∧ answers (step (storing 0x00))
      { storing 0x00 with pc := 0x8002, mem := [(0x8000, 0x85)] } = true) := by decide

/-- StepKeepsUnusedSetAndBreakClear: a PLP of 0xFF and one of 0x00. -/
def pulling (v : Byte) : State := poked { start with sp := 0xFC } [(0x8000, 0x28), (0x01FC, v)]
theorem witness_StepKeepsUnusedSetAndBreakClear :
    bit (pulling 0xFF) bitU = true ∧ bit (pulling 0xFF) bitB = false ∧
    answers (step (pulling 0xFF)) { pulling 0xFF with p := 0xEF, sp := 0xFD, pc := 0x8001 } = true ∧
    answers (step (pulling 0x00)) { pulling 0x00 with p := 0x20, sp := 0xFD, pc := 0x8001 } = true := by decide

/-- InvariantsHoldAtReset: a load. -/
theorem witness_InvariantsHoldAtReset :
    State.construct.wf = true ∧ answers (hostLoad [0xA9, 0x05] State.construct)
      { State.construct with mem := [(0x8000, 0xA9), (0x8001, 0x05), (0xFFFD, 0x80)] } = true := by decide

/-- InertStatusBits: each of the four bits written differently, for ADC in decimal mode, BRK and, for B and U,
PHP. -/
theorem witness_InertStatusBits :
    (∀ k ∈ [bitI, bitD, bitB, bitU], ∀ i ∈ [Instr.adcImm 0x01, .brk], (k ∈ [bitI, bitD] → i ≠ .php) ∧
      ∀ j, j < 8 → j ≠ k → (start.p ^^^ (1#8 <<< k)).getLsbD j = start.p.getLsbD j) ∧
    (∀ k ∈ [bitB, bitU], (k ∈ [bitI, bitD] → Instr.php ≠ .php) ∧
      ∀ j, j < 8 → j ≠ k → (start.p ^^^ (1#8 <<< k)).getLsbD j = start.p.getLsbD j) := by decide

/-- LoadPlacesImageAndVector: the longest image that fits and the shortest that does not (H3, H4). -/
theorem witness_LoadPlacesImageAndVector :
    (List.replicate 0x7FFF (0x33 : Byte)).length ≤ 0x7FFF ∧
      0x7FFF < (List.replicate 0x8000 (0x33 : Byte)).length := by
  rw [List.length_replicate, List.length_replicate]; decide

/-- AssembledBranchReachesItsTarget: the farthest target backwards, and with the literal comparison too. -/
def branching : State := poked start [(0x8000, 0xD0), (0x8001, 0x80)]
theorem witness_AssembledBranchReachesItsTarget :
    branchOffset branching.pc 0x7F82 = some 0x80 ∧ branching.run = .running ∧
    branching.mem.read branching.pc = 0xD0 ∧ branching.mem.read (branching.pc + 1) = 0x80 ∧
    bit branching bitZ = false ∧ branching.cfg.pcCompareAdvance = false ∧
    (comparing branching).cfg.pcCompareAdvance = true ∧ (0x7F82 : Addr) ≠ branching.pc + 1 := by decide

end Sys2Proof.Tests
end

section
/-! SUPPORT. How an instruction's rule may use P (10_state.md R27 to R35, 42_alu.md R152): it reads C, Z, V and N,
it writes a flag other than B and U, and it loads a pulled byte with B clear and U set; only PHP reads more.
`exec_alike` says so once, over every instruction, as a fact about two runs whose states differ in P alone. -/

namespace Sys2Proof.Machine

open Sys2Proof

/-! ### Bits of a status byte -/

/-- A bit of a status byte by number, after a flag write (R10). -/
theorem getLsbD_withFlag (p : Byte) (f : Flag) (b : Bool) {k : Nat} (hk : k < 8) :
    (withFlag p f b).getLsbD k = if k = f.bit then b else p.getLsbD k :=
  State.setFlag_bit (State.construct.setP p) f b k hk

theorem Flag.bit_lt (f : Flag) : f.bit < 8 := by cases f <;> decide

/-! ### Two states that differ in P alone -/

/-- A relation of status bytes that the uses of P keep: related bytes read alike in C, Z, V and N, a flag
other than B and U can be written to both, and a pulled status is related to itself (R30 to R33, R208). -/
structure StatusRelation (Q : Byte → Byte → Prop) : Prop where
  flagOf_eq : ∀ {p q : Byte} {f : Flag}, Q p q → f ∈ [Flag.c, .z, .v, .n] → flagOf q f = flagOf p f
  withFlag : ∀ {p q : Byte} {f : Flag} (b : Bool), Q p q → f ∉ [Flag.b, .u] →
    Q (withFlag p f b) (withFlag q f b)
  loaded : ∀ v : Byte, Q ((v &&& 0xCF) ||| 0x20) ((v &&& 0xCF) ||| 0x20)

/-- The second state is the first but for its P, which is related to the first one's. -/
inductive SameButStatus (Q : Byte → Byte → Prop) (s : State) : State → Prop
  | mk {q : Byte} (h : Q s.p q) : SameButStatus Q s (s.setP q)

/-- Both answers are next states, equal but for their related P. -/
def CompleteAlike (Q : Byte → Byte → Prop) (r r' : Result) : Prop :=
  ∃ t u, r = .next t ∧ r' = .next u ∧ SameButStatus Q t u

section

variable {Q : Byte → Byte → Prop} {s s' : State}

theorem SameButStatus.next {t u : State} (h : SameButStatus Q t u) : CompleteAlike Q (.next t) (.next u) :=
  ⟨t, u, rfl, rfl, h⟩

/-! What the two states give when they are read. -/

theorem SameButStatus.get_eq (h : SameButStatus Q s s') (r : Reg) : s'.get r = s.get r := by
  obtain ⟨-⟩ := h; cases r <;> rfl

theorem SameButStatus.a_eq (h : SameButStatus Q s s') : s'.a = s.a := h.get_eq .a
theorem SameButStatus.x_eq (h : SameButStatus Q s s') : s'.x = s.x := h.get_eq .x
theorem SameButStatus.pc_eq (h : SameButStatus Q s s') : s'.pc = s.pc := by obtain ⟨-⟩ := h; rfl
theorem SameButStatus.mem_eq (h : SameButStatus Q s s') : s'.mem = s.mem := by obtain ⟨-⟩ := h; rfl
theorem SameButStatus.ea_eq (h : SameButStatus Q s s') (o : Operand) : s'.ea o = s.ea o := by
  obtain ⟨-⟩ := h; rfl

theorem SameButStatus.operandByte_eq (h : SameButStatus Q s s') (o : Operand) :
    s'.operandByte o = s.operandByte o := by
  obtain ⟨-⟩ := h; cases o <;> rfl

theorem SameButStatus.pop8_value_eq (h : SameButStatus Q s s') : s'.pop8.1 = s.pop8.1 := by
  obtain ⟨-⟩ := h; simp only [State.pop8_value]; rfl

theorem SameButStatus.flag_eq (h : SameButStatus Q s s') (hQ : StatusRelation Q) {f : Flag}
    (hf : f ∈ [Flag.c, .z, .v, .n]) : s'.flag f = s.flag f := by
  obtain ⟨hq⟩ := h; exact hQ.flagOf_eq hq hf

/-! What a write to both makes of them. -/

theorem SameButStatus.set (h : SameButStatus Q s s') (r : Reg) (v : Byte) :
    SameButStatus Q (s.set r v) (s'.set r v) := by
  obtain ⟨hq⟩ := h; cases r <;> exact ⟨hq⟩

theorem SameButStatus.setPC (h : SameButStatus Q s s') (w : Addr) : SameButStatus Q (s.setPC w) (s'.setPC w) := by
  obtain ⟨hq⟩ := h; exact ⟨hq⟩

theorem SameButStatus.store (h : SameButStatus Q s s') (a : Addr) (v : Byte) :
    SameButStatus Q (s.store a v) (s'.store a v) := by
  obtain ⟨hq⟩ := h; exact ⟨hq⟩

theorem SameButStatus.setMem (h : SameButStatus Q s s') (m : Memory) :
    SameButStatus Q (s.setMem m) (s'.setMem m) := by
  obtain ⟨hq⟩ := h; exact ⟨hq⟩

theorem SameButStatus.halt (h : SameButStatus Q s s') (c : HaltCause) :
    SameButStatus Q (s.halt c) (s'.halt c) := by
  obtain ⟨hq⟩ := h; exact ⟨hq⟩

theorem SameButStatus.push8 (h : SameButStatus Q s s') (v : Byte) : SameButStatus Q (s.push8 v) (s'.push8 v) := by
  obtain ⟨hq⟩ := h; rw [State.push8_eq, State.push8_eq]; exact ⟨hq⟩

theorem SameButStatus.push16 (h : SameButStatus Q s s') (w : Addr) : SameButStatus Q (s.push16 w) (s'.push16 w) :=
  (h.push8 _).push8 _

theorem SameButStatus.pop8 (h : SameButStatus Q s s') : SameButStatus Q s.pop8.2 s'.pop8.2 := by
  obtain ⟨hq⟩ := h; rw [State.pop8_state, State.pop8_state]; exact ⟨hq⟩

theorem SameButStatus.pop16 (h : SameButStatus Q s s') : SameButStatus Q s.pop16.2 s'.pop16.2 := h.pop8.pop8

theorem SameButStatus.pop16_value_eq (h : SameButStatus Q s s') : s'.pop16.1 = s.pop16.1 :=
  congrArg₂ word h.pop8.pop8_value_eq h.pop8_value_eq

theorem SameButStatus.setFlag (h : SameButStatus Q s s') (hQ : StatusRelation Q) (f : Flag) (b : Bool)
    (hf : f ∉ [Flag.b, .u]) : SameButStatus Q (s.setFlag f b) (s'.setFlag f b) := by
  obtain ⟨hq⟩ := h; exact ⟨hQ.withFlag b hq hf⟩

theorem SameButStatus.setZN (h : SameButStatus Q s s') (hQ : StatusRelation Q) (v : Byte) :
    SameButStatus Q (s.setZN v) (s'.setZN v) :=
  (h.setFlag hQ .z _ (by decide)).setFlag hQ .n _ (by decide)

theorem SameButStatus.loadStatus (h : SameButStatus Q s s') (hQ : StatusRelation Q) (v : Byte) :
    SameButStatus Q (s.loadStatus v) (s'.loadStatus v) := by
  obtain ⟨-⟩ := h; exact ⟨hQ.loaded v⟩

/-! ### The shared operations, one lemma each -/

theorem withOperand_alike (h : SameButStatus Q s s') {i : Instr} {rule rule' : Byte → State}
    (ho : (s.operandByte i.operand).isSome = true) (hr : ∀ m, SameButStatus Q (rule m) (rule' m)) :
    CompleteAlike Q (withOperand i s rule) (withOperand i s' rule') := by
  obtain ⟨m, hm⟩ := Option.isSome_iff_exists.1 ho
  have hm' : s'.operandByte i.operand = some m := (h.operandByte_eq _).trans hm
  simpa only [withOperand, hm, hm'] using (hr m).next

theorem withEA_alike (h : SameButStatus Q s s') {i : Instr} {rule rule' : Addr → State}
    (ho : (s.ea i.operand).isSome = true) (hr : ∀ ea, SameButStatus Q (rule ea) (rule' ea)) :
    CompleteAlike Q (withEA i s rule) (withEA i s' rule') := by
  obtain ⟨ea, hea⟩ := Option.isSome_iff_exists.1 ho
  have hea' : s'.ea i.operand = some ea := (h.ea_eq _).trans hea
  simpa only [withEA, hea, hea'] using (hr ea).next

theorem load_alike (h : SameButStatus Q s s') (hQ : StatusRelation Q) (r : Reg) {i : Instr}
    (ho : (s.operandByte i.operand).isSome = true) : CompleteAlike Q (load r i s) (load r i s') :=
  withOperand_alike h ho fun m => (h.set r m).setZN hQ m

theorem store_alike (h : SameButStatus Q s s') (r : Reg) {i : Instr} (ho : (s.ea i.operand).isSome = true) :
    CompleteAlike Q (store r i s) (store r i s') :=
  withEA_alike h ho fun ea => by rw [h.get_eq]; exact h.store ea _

theorem transfer_alike (h : SameButStatus Q s s') (hQ : StatusRelation Q) (src dst : Reg) :
    CompleteAlike Q (transfer src dst s) (transfer src dst s') := by
  rw [transfer, transfer, h.get_eq]
  exact ((h.set dst _).setZN hQ _).next

theorem addToA_alike (h : SameButStatus Q s s') (hQ : StatusRelation Q) (m : Byte) :
    SameButStatus Q (addToA m s) (addToA m s') := by
  rw [addToA, addToA, h.a_eq, h.flag_eq hQ (by decide)]
  exact (((h.set .a _).setFlag hQ .c _ (by decide)).setFlag hQ .v _ (by decide)).setZN hQ _

theorem addWithCarry_alike (h : SameButStatus Q s s') (hQ : StatusRelation Q) {i : Instr}
    (ho : (s.operandByte i.operand).isSome = true) : CompleteAlike Q (addWithCarry i s) (addWithCarry i s') :=
  withOperand_alike h ho fun m => addToA_alike h hQ m

theorem subWithBorrow_alike (h : SameButStatus Q s s') (hQ : StatusRelation Q) {i : Instr}
    (ho : (s.operandByte i.operand).isSome = true) : CompleteAlike Q (subWithBorrow i s) (subWithBorrow i s') :=
  withOperand_alike h ho fun m => addToA_alike h hQ (~~~m)

theorem logic_alike (h : SameButStatus Q s s') (hQ : StatusRelation Q) (op : Byte → Byte → Byte) {i : Instr}
    (ho : (s.operandByte i.operand).isSome = true) : CompleteAlike Q (logic op i s) (logic op i s') :=
  withOperand_alike h ho fun m => by rw [h.a_eq]; exact (h.set .a _).setZN hQ _

theorem compareReg_alike (h : SameButStatus Q s s') (hQ : StatusRelation Q) (r : Reg) {i : Instr}
    (ho : (s.operandByte i.operand).isSome = true) : CompleteAlike Q (compareReg r i s) (compareReg r i s') :=
  withOperand_alike h ho fun m => by rw [h.get_eq]; exact (h.setFlag hQ .c _ (by decide)).setZN hQ _

theorem bitTest_alike (h : SameButStatus Q s s') (hQ : StatusRelation Q) {i : Instr}
    (ho : (s.operandByte i.operand).isSome = true) : CompleteAlike Q (bitTest i s) (bitTest i s') :=
  withOperand_alike h ho fun m => by
    rw [h.a_eq]
    exact ((h.setFlag hQ .z _ (by decide)).setFlag hQ .n _ (by decide)).setFlag hQ .v _ (by decide)

theorem shiftA_alike (h : SameButStatus Q s s') (hQ : StatusRelation Q) (f : Byte → Bool → Shifted) :
    CompleteAlike Q (shiftA f s) (shiftA f s') := by
  rw [shiftA, shiftA, h.a_eq, h.flag_eq hQ (by decide)]
  exact (((h.set .a _).setFlag hQ .c _ (by decide)).setZN hQ _).next

theorem shiftMem_alike (h : SameButStatus Q s s') (hQ : StatusRelation Q) (f : Byte → Bool → Shifted)
    {i : Instr} (ho : (s.ea i.operand).isSome = true) : CompleteAlike Q (shiftMem f i s) (shiftMem f i s') :=
  withEA_alike h ho fun ea => by
    rw [h.mem_eq, h.flag_eq hQ (by decide)]
    exact ((h.store ea _).setFlag hQ .c _ (by decide)).setZN hQ _

theorem modifyMem_alike (h : SameButStatus Q s s') (hQ : StatusRelation Q) (f : Byte → Byte) {i : Instr}
    (ho : (s.ea i.operand).isSome = true) : CompleteAlike Q (modifyMem f i s) (modifyMem f i s') :=
  withEA_alike h ho fun ea => by rw [h.mem_eq]; exact (h.store ea _).setZN hQ _

theorem modifyReg_alike (h : SameButStatus Q s s') (hQ : StatusRelation Q) (f : Byte → Byte) (r : Reg) :
    CompleteAlike Q (modifyReg f r s) (modifyReg f r s') := by
  rw [modifyReg, modifyReg, h.get_eq]
  exact ((h.set r _).setZN hQ _).next

/-- A branch on a condition `g` of the flag `f`. -/
theorem branch_alike (h : SameButStatus Q s s') (hQ : StatusRelation Q) (f : Flag) (g : Bool → Bool) (o : Byte)
    (hf : f ∈ [Flag.c, .z, .v, .n]) :
    CompleteAlike Q (.next (branch (g (s.flag f)) o s)) (.next (branch (g (s'.flag f)) o s')) := by
  rw [branch, branch, h.flag_eq hQ hf, h.pc_eq]
  exact (h.setPC _).next

theorem pullA_alike (h : SameButStatus Q s s') (hQ : StatusRelation Q) :
    SameButStatus Q (pullA s) (pullA s') := by
  rw [pullA, pullA, h.pop8_value_eq]
  exact (h.pop8.set .a _).setZN hQ _

theorem callSubroutine_alike (h : SameButStatus Q s s') (w : Addr) :
    SameButStatus Q (callSubroutine w s) (callSubroutine w s') := by
  have hm := ((h.setMem (s.mem.write16 s.pc w)).push16 (s.pc + 1)).mem_eq
  rw [callSubroutine, callSubroutine, h.mem_eq, h.pc_eq]
  rw [hm]
  exact (h.push16 _).setPC _

theorem pulledStatus_alike (h : SameButStatus Q s s') (hQ : StatusRelation Q) :
    SameButStatus Q (s.pop8.2.loadStatus s.pop8.1) (s'.pop8.2.loadStatus s'.pop8.1) := by
  rw [h.pop8_value_eq]
  exact h.pop8.loadStatus hQ _

theorem returnFromInterrupt_alike (h : SameButStatus Q s s') (hQ : StatusRelation Q) :
    SameButStatus Q (returnFromInterrupt s) (returnFromInterrupt s') := by
  have hs := pulledStatus_alike h hQ
  rw [returnFromInterrupt, returnFromInterrupt]
  rw [hs.pop16_value_eq]
  exact hs.pop16.setPC _

theorem execTxs_alike (h : SameButStatus Q s s') : CompleteAlike Q (execTxs s) (execTxs s') := by
  rw [execTxs, execTxs, h.x_eq]
  exact (h.set .sp _).next

theorem execPha_alike (h : SameButStatus Q s s') : CompleteAlike Q (execPha s) (execPha s') := by
  rw [execPha, execPha, h.a_eq]
  exact (h.push8 _).next

theorem execJmpInd_alike (h : SameButStatus Q s s') (w : Addr) :
    CompleteAlike Q (execJmpInd w s) (execJmpInd w s') := by
  rw [execJmpInd, execJmpInd, h.mem_eq]
  exact (h.setPC _).next

theorem execRts_alike (h : SameButStatus Q s s') : CompleteAlike Q (execRts s) (execRts s') := by
  rw [execRts, execRts, h.pop16_value_eq]
  exact (h.pop16.setPC _).next

/-- PHP, the one instruction that reads more of P: it pushes every bit but B and U (R207). -/
theorem execPhp_alike (h : SameButStatus Q s s') (hp : s.p ||| 0x30 = s'.p ||| 0x30) :
    CompleteAlike Q (execPhp s) (execPhp s') := by
  rw [execPhp, execPhp, ← hp]
  exact (h.push8 _).next

/-! ### All instructions -/

/-- The rule an instruction is dispatched to, in place of `exec` (R103). -/
theorem CompleteAlike.of_rule {i : Instr} (rule : Instr → State → Result) (he : exec i = rule i)
    (hr : CompleteAlike Q (rule i s) (rule i s')) : CompleteAlike Q (exec i s) (exec i s') := by
  rwa [he]

/-- From two states equal but for a related P, every instruction completes in states equal but for a related P;
for PHP the byte it pushes has to be the same. -/
theorem exec_alike (hQ : StatusRelation Q) (h : SameButStatus Q s s') (i : Instr)
    (hp : i = .php → s.p ||| 0x30 = s'.p ||| 0x30) : CompleteAlike Q (exec i s) (exec i s') := by
  cases i with
  | ldaImm | ldaZp | ldaZpX | ldaAbs | ldaAbsX | ldaAbsY | ldaIndX | ldaIndY =>
    exact .of_rule (load .a) rfl (load_alike h hQ .a rfl)
  | ldxImm | ldxZp | ldxZpY | ldxAbs | ldxAbsY => exact .of_rule (load .x) rfl (load_alike h hQ .x rfl)
  | ldyImm | ldyZp | ldyZpX | ldyAbs | ldyAbsX => exact .of_rule (load .y) rfl (load_alike h hQ .y rfl)
  | staZp | staZpX | staAbs | staAbsX | staAbsY | staIndX | staIndY =>
    exact .of_rule (store .a) rfl (store_alike h .a rfl)
  | stxZp | stxZpY | stxAbs => exact .of_rule (store .x) rfl (store_alike h .x rfl)
  | styZp | styZpX | styAbs => exact .of_rule (store .y) rfl (store_alike h .y rfl)
  | tax => exact transfer_alike h hQ .a .x
  | tay => exact transfer_alike h hQ .a .y
  | tsx => exact transfer_alike h hQ .sp .x
  | txa => exact transfer_alike h hQ .x .a
  | tya => exact transfer_alike h hQ .y .a
  | txs => exact execTxs_alike h
  | adcImm | adcZp | adcZpX | adcAbs | adcAbsX | adcAbsY | adcIndX | adcIndY =>
    exact .of_rule addWithCarry rfl (addWithCarry_alike h hQ rfl)
  | sbcImm | sbcZp | sbcZpX | sbcAbs | sbcAbsX | sbcAbsY | sbcIndX | sbcIndY =>
    exact .of_rule subWithBorrow rfl (subWithBorrow_alike h hQ rfl)
  | andImm | andZp | andZpX | andAbs | andAbsX | andAbsY | andIndX | andIndY =>
    exact .of_rule (logic (· &&& ·)) rfl (logic_alike h hQ (· &&& ·) rfl)
  | oraImm | oraZp | oraZpX | oraAbs | oraAbsX | oraAbsY | oraIndX | oraIndY =>
    exact .of_rule (logic (· ||| ·)) rfl (logic_alike h hQ (· ||| ·) rfl)
  | eorImm | eorZp | eorZpX | eorAbs | eorAbsX | eorAbsY | eorIndX | eorIndY =>
    exact .of_rule (logic (· ^^^ ·)) rfl (logic_alike h hQ (· ^^^ ·) rfl)
  | cmpImm | cmpZp | cmpZpX | cmpAbs | cmpAbsX | cmpAbsY | cmpIndX | cmpIndY =>
    exact .of_rule (compareReg .a) rfl (compareReg_alike h hQ .a rfl)
  | cpxImm | cpxZp | cpxAbs => exact .of_rule (compareReg .x) rfl (compareReg_alike h hQ .x rfl)
  | cpyImm | cpyZp | cpyAbs => exact .of_rule (compareReg .y) rfl (compareReg_alike h hQ .y rfl)
  | bitZp | bitAbs => exact .of_rule bitTest rfl (bitTest_alike h hQ rfl)
  | aslAcc => exact shiftA_alike h hQ asl8
  | lsrAcc => exact shiftA_alike h hQ lsr8
  | rolAcc => exact shiftA_alike h hQ rol8
  | rorAcc => exact shiftA_alike h hQ ror8
  | aslZp | aslZpX | aslAbs | aslAbsX => exact .of_rule (shiftMem asl8) rfl (shiftMem_alike h hQ asl8 rfl)
  | lsrZp | lsrZpX | lsrAbs | lsrAbsX => exact .of_rule (shiftMem lsr8) rfl (shiftMem_alike h hQ lsr8 rfl)
  | rolZp | rolZpX | rolAbs | rolAbsX => exact .of_rule (shiftMem rol8) rfl (shiftMem_alike h hQ rol8 rfl)
  | rorZp | rorZpX | rorAbs | rorAbsX => exact .of_rule (shiftMem ror8) rfl (shiftMem_alike h hQ ror8 rfl)
  | incZp | incZpX | incAbs | incAbsX => exact .of_rule (modifyMem inc8) rfl (modifyMem_alike h hQ inc8 rfl)
  | decZp | decZpX | decAbs | decAbsX => exact .of_rule (modifyMem dec8) rfl (modifyMem_alike h hQ dec8 rfl)
  | inx => exact modifyReg_alike h hQ inc8 .x
  | iny => exact modifyReg_alike h hQ inc8 .y
  | dex => exact modifyReg_alike h hQ dec8 .x
  | dey => exact modifyReg_alike h hQ dec8 .y
  | bcc o => exact branch_alike h hQ .c not o (by decide)
  | bcs o => exact branch_alike h hQ .c id o (by decide)
  | beq o => exact branch_alike h hQ .z id o (by decide)
  | bne o => exact branch_alike h hQ .z not o (by decide)
  | bmi o => exact branch_alike h hQ .n id o (by decide)
  | bpl o => exact branch_alike h hQ .n not o (by decide)
  | bvc o => exact branch_alike h hQ .v not o (by decide)
  | bvs o => exact branch_alike h hQ .v id o (by decide)
  | clc => exact (h.setFlag hQ .c false (by decide)).next
  | sec => exact (h.setFlag hQ .c true (by decide)).next
  | cli => exact (h.setFlag hQ .i false (by decide)).next
  | sei => exact (h.setFlag hQ .i true (by decide)).next
  | cld => exact (h.setFlag hQ .d false (by decide)).next
  | sed => exact (h.setFlag hQ .d true (by decide)).next
  | clv => exact (h.setFlag hQ .v false (by decide)).next
  | pha => exact execPha_alike h
  | php => exact execPhp_alike h (hp rfl)
  | pla => exact (pullA_alike h hQ).next
  | plp => exact (pulledStatus_alike h hQ).next
  | jmpAbs w => exact (h.setPC w).next
  | jmpInd w => exact execJmpInd_alike h w
  | jsr w => exact (callSubroutine_alike h w).next
  | rts => exact execRts_alike h
  | rti => exact (returnFromInterrupt_alike h hQ).next
  | brk => exact (h.halt .brk).next
  | nop => exact h.next

end

/-! ### The two relations the statements need -/

/-- Status bytes equal but perhaps in bit `k`. -/
def EqualButBit (k : Nat) (p q : Byte) : Prop := ∀ j, j < 8 → j ≠ k → q.getLsbD j = p.getLsbD j

/-- The bit of a flag no rule reads (I, D, B or U) may differ in the two states. -/
theorem statusRelation_equalButBit {k : Nat} (hk : ∀ f ∈ [Flag.c, .z, .v, .n], f.bit ≠ k) :
    StatusRelation (EqualButBit k) where
  flagOf_eq h hf := h _ (Flag.bit_lt _) (hk _ hf)
  withFlag b h _ j hj hjk := by rw [getLsbD_withFlag _ _ _ hj, getLsbD_withFlag _ _ _ hj, h j hj hjk]
  loaded _ _ _ _ := rfl

/-- Bytes that differ in B or U alone are pushed alike by PHP, which sets both (R207). -/
theorem EqualButBit.pushed_eq {k : Nat} {p q : Byte} (h : EqualButBit k p q) (hk : k = 4 ∨ k = 5) :
    p ||| 0x30 = q ||| 0x30 := by
  refine BitVec.eq_of_getLsbD_eq fun j hj => ?_
  rw [BitVec.getLsbD_or, BitVec.getLsbD_or]
  by_cases hjk : j = k
  · have hset : (0x30 : Byte).getLsbD j = true := by rcases hk with rfl | rfl <;> subst hjk <;> rfl
    rw [hset, Bool.or_true, Bool.or_true]
  · rw [h j hj hjk]

/-- U is set and B is clear in a status byte (R32, R33). -/
def Conventional (p : Byte) : Prop := flagOf p .u = true ∧ flagOf p .b = false

/-- What `reset` puts in P (R41, D4). -/
theorem conventional_reset : Conventional 0x20 := ⟨by decide, by decide⟩

/-- What PLP and RTI put in P (R208, R224). -/
theorem conventional_loaded (v : Byte) : Conventional ((v &&& 0xCF) ||| 0x20) :=
  ⟨State.loadStatus_bit State.construct v 5 (by decide), State.loadStatus_bit State.construct v 4 (by decide)⟩

theorem conventional_withFlag {p : Byte} {f : Flag} (b : Bool) (h : Conventional p) (hf : f ∉ [Flag.b, .u]) :
    Conventional (withFlag p f b) := by
  have hu : Flag.u ≠ f := by rintro rfl; exact hf (by decide)
  have hb : Flag.b ≠ f := by rintro rfl; exact hf (by decide)
  rwa [Conventional, flagOf_withFlag, flagOf_withFlag, if_neg hu, if_neg hb]

/-- One status byte, with U set and B clear, on both sides. -/
def SameConventional (p q : Byte) : Prop := p = q ∧ Conventional p

theorem statusRelation_sameConventional : StatusRelation SameConventional where
  flagOf_eq := by rintro _ _ _ ⟨rfl, -⟩ _; rfl
  withFlag := by rintro _ _ _ b ⟨rfl, h⟩ hf; exact ⟨rfl, conventional_withFlag b h hf⟩
  loaded v := ⟨rfl, conventional_loaded v⟩

/-- Every instruction keeps U set and B clear: the run beside itself. -/
theorem exec_conventional {i : Instr} {s t : State} (hs : Conventional s.p) (h : exec i s = .next t) :
    Conventional t.p := by
  have hself : SameButStatus SameConventional s (s.setP s.p) := ⟨⟨rfl, hs⟩⟩
  obtain ⟨u, -, ht, -, ⟨-, hc⟩⟩ := exec_alike statusRelation_sameConventional hself i fun _ => rfl
  cases h.symm.trans ht
  exact hc

end Sys2Proof.Machine
end

section
/-! SUPPORT. Memory in its canonical form (10_state.md R36): what it says of a read, and what keeps it. -/

namespace Sys2Proof.Machine

open Sys2Proof

/-- A canonical list reads as unlisted at and below its bound. -/
theorem Memory.readNat_of_le {l a : Nat} (ha : a ≤ l) :
    ∀ {m : Memory}, Memory.wfAbove (some l) m = true → m.readNat a = Memory.unlisted
  | [], _ => rfl
  | (k, b) :: m, hm => by
    obtain ⟨hl, -, -, hm⟩ := (Memory.wfAbove_cons _ _ _ _).1 hm
    have hak : a < k := lt_of_le_of_lt ha (hl l rfl)
    rw [Memory.readNat, if_neg hak.ne', Memory.readNat_of_le hak.le hm]

/-- The first entry of a list is what its address reads as. -/
theorem Memory.readNat_cons_self (k : Nat) (b : Byte) (m : Memory) : Memory.readNat ((k, b) :: m) k = b := by
  rw [Memory.readNat, if_pos rfl]

/-- Canonical lists that read alike start at the same address: neither starts before the other. -/
theorem Memory.not_head_lt {lo lo' : Option Nat} {k j : Nat} {b c : Byte} {m n : Memory}
    (hm : Memory.wfAbove lo ((k, b) :: m) = true) (hn : Memory.wfAbove lo' ((j, c) :: n) = true)
    (h : ∀ a, a < 65536 → Memory.readNat ((k, b) :: m) a = Memory.readNat ((j, c) :: n) a) : ¬ k < j := by
  intro hkj
  obtain ⟨-, hk, hb, -⟩ := (Memory.wfAbove_cons _ _ _ _).1 hm
  obtain ⟨-, hj⟩ := (Memory.wfAbove_cons _ _ _ _).1 hn
  have hn' : Memory.wfAbove (some k) ((j, c) :: n) = true :=
    (Memory.wfAbove_cons _ _ _ _).2 ⟨by simpa using hkj, hj⟩
  exact hb (by rw [← Memory.readNat_cons_self k b m, h k hk, Memory.readNat_of_le le_rfl hn'])

/-- Canonical lists that read alike at every address are equal, whatever their bounds. -/
theorem Memory.eq_of_readNat_eq : ∀ {lo lo' : Option Nat} {m n : Memory}, Memory.wfAbove lo m = true →
    Memory.wfAbove lo' n = true → (∀ a, a < 65536 → m.readNat a = n.readNat a) → m = n
  | _, _, [], [], _, _, _ => rfl
  | _, _, [], (j, c) :: n, _, hn, h => by
    obtain ⟨-, hj, hc, -⟩ := (Memory.wfAbove_cons _ _ _ _).1 hn
    exact absurd ((Memory.readNat_cons_self j c n).symm.trans (h j hj).symm) hc
  | _, _, (k, b) :: m, [], hm, _, h => by
    obtain ⟨-, hk, hb, -⟩ := (Memory.wfAbove_cons _ _ _ _).1 hm
    exact absurd ((Memory.readNat_cons_self k b m).symm.trans (h k hk)) hb
  | _, _, (k, b) :: m, (j, c) :: n, hm, hn, h => by
    obtain rfl : k = j := le_antisymm (not_lt.1 (Memory.not_head_lt hn hm fun a ha => (h a ha).symm))
      (not_lt.1 (Memory.not_head_lt hm hn h))
    obtain ⟨-, hk, -, hm'⟩ := (Memory.wfAbove_cons _ _ _ _).1 hm
    obtain ⟨-, -, -, hn'⟩ := (Memory.wfAbove_cons _ _ _ _).1 hn
    have hbc : b = c := by simpa only [Memory.readNat_cons_self] using h k hk
    have htail : m = n := Memory.eq_of_readNat_eq hm' hn' fun a ha => by
      by_cases hak : a ≤ k
      · rw [Memory.readNat_of_le hak hm', Memory.readNat_of_le hak hn']
      · have hka : k ≠ a := fun e => hak e.ge
        simpa only [Memory.readNat, if_neg hka] using h a ha
    rw [hbc, htail]

/-- Every instruction keeps the canonical form: it writes at most two bytes (R55). -/
theorem exec_wf {i : Instr} {s t : State} (hs : s.wf = true) (h : exec i s = .next t) : t.wf = true := by
  obtain ⟨-, -, hmem | ⟨a, v, hmem⟩ | ⟨a, v, b, w, hmem⟩⟩ := exec_frame h <;> rw [State.wf, hmem]
  · exact hs
  · exact Memory.wf_write hs a v
  · exact Memory.wf_write (Memory.wf_write hs a v) b w

/-- `load` keeps the canonical form. -/
theorem hostLoad_wf {bytes : List Byte} {s t : State} (hs : s.wf = true) (h : hostLoad bytes s = .next t) :
    t.wf = true := by
  unfold hostLoad at h
  split at h
  · cases h
    exact Memory.wf_write16 (Memory.wf_writeBytes bytes hs loadOrigin) resetVector loadOrigin
  · cases h

/-- What `reset` writes: every register, and neither Mem nor Run nor the parameters (R41, R292). -/
theorem hostReset_eq (s : State) : hostReset s =
    { s with a := 0, x := 0, y := 0, p := 0x20, sp := 0xFD, pc := s.mem.read 0xFFFD ++ s.mem.read 0xFFFC } :=
  rfl

end Sys2Proof.Machine
end

section
/-! The statements about the state (10_state.md). -/

namespace Sys2Proof.Proofs

open Sys2Proof Sys2Proof.Machine Sys2Proof.Claims

/-- Settles O50: the halt on an unknown opcode and the advance leave memory, and an instruction's rule keeps
its form. -/
theorem stepKeepsMemoryCanonical : Obligations.StepKeepsMemoryCanonical := by
  intro s t hs hstep
  obtain ⟨-, ⟨-, rfl⟩ | ⟨i, rest, u, -, hu, rfl⟩⟩ := step_cases hstep
  · exact hs
  · have hwf : u.wf = true := exec_wf (s := s.fetched) hs hu
    rwa [State.wf, advance_mem]

/-- Settles O51: the halt on an unknown opcode and the advance leave P, and an instruction's rule writes U and B
by loading a pulled status alone. -/
theorem stepKeepsUnusedSetAndBreakClear : Obligations.StepKeepsUnusedSetAndBreakClear := by
  intro s t hU hB hstep
  obtain ⟨-, ⟨-, rfl⟩ | ⟨i, rest, u, -, hu, rfl⟩⟩ := step_cases hstep
  · exact ⟨hU, hB⟩
  · have hc : Conventional u.p := exec_conventional (s := s.fetched) ⟨hU, hB⟩ hu
    rwa [bit, bit, advance_p]

/-- Settles O53: equality but for one of these bits is a relation that every use of P keeps, and PHP sets B and U
in what it pushes. -/
theorem inertStatusBits : Obligations.InertStatusBits := by
  intro k i s q hk hphp hq
  have hunread : ∀ f ∈ [Flag.c, .z, .v, .n], f.bit ≠ k := by
    fin_cases hk <;> decide
  have hpushed : i = .php → s.p ||| 0x30 = q ||| 0x30 := fun hi => by
    have hBU : k = 4 ∨ k = 5 := by
      have hID : k ∉ [bitI, bitD] := fun h => hphp h hi
      fin_cases hk <;> simp_all
    exact EqualButBit.pushed_eq hq hBU
  have hsame : SameButStatus (EqualButBit k) s (s.setP q) := ⟨hq⟩
  obtain ⟨t, _, ht, hu, ⟨hp⟩⟩ := exec_alike (statusRelation_equalButBit hunread) hsame i hpushed
  exact ⟨t, _, ht, hu, rfl, hp⟩

/-- Settles O33: reading alike at every address is reading alike at every number below 65536. -/
theorem canonicalMemoryIsExtensional : Obligations.CanonicalMemoryIsExtensional := by
  intro m n hm hn h
  refine Memory.eq_of_readNat_eq hm hn fun a ha => ?_
  simpa only [Memory.read, BitVec.toNat_ofNat, Nat.mod_eq_of_lt ha] using h (BitVec.ofNat 16 a)

/-- Settles O52: the states at construction and reset are closed terms, and load writes bytes, which keeps
memory's form. -/
theorem invariantsHoldAtReset : Obligations.InvariantsHoldAtReset :=
  ⟨rfl, rfl, Memory.wf_nil, rfl, rfl, Memory.wf_nil, fun _ _ _ => hostLoad_wf, fun _ => ⟨rfl, conventional_reset⟩⟩

/-- Settles O54: nothing is listed in a constructed core's memory, and `hostReset_eq` is the rest. -/
theorem constructionAndReset : Obligations.ConstructionAndReset :=
  ⟨Memory.read_nil, rfl, hostReset_eq⟩

end Sys2Proof.Proofs
end

section
/-! SUPPORT. Words of memory as numbers (20_memory.md R51, R52), and what the resolver does for a form recorded as
NoAddressing (R70). -/

namespace Sys2Proof.Machine

open Sys2Proof Sys2Proof.Claims

/-! ### Bytes and addresses as numbers -/

/-- An address known as a number. -/
theorem eq_ofNat_of_toNat_eq {a : Addr} {n : Nat} (h : a.toNat = n) : a = BitVec.ofNat 16 n := by
  rw [← h, BitVec.ofNat_toNat, BitVec.setWidth_eq]

/-- An address that may be absent, known as a number. -/
theorem eq_some_ofNat {o : Option Addr} {a : Addr} {n : Nat} (ho : o = some a) (ha : a.toNat = n) :
    o = some (BitVec.ofNat 16 n) :=
  ho.trans (congrArg some (eq_ofNat_of_toNat_eq ha))

theorem zext16_eq_ofNat (v : Byte) : zext16 v = BitVec.ofNat 16 v.toNat := eq_ofNat_of_toNat_eq (zext16_toNat v)

theorem succ_eq_ofNat (a : Addr) : a + 1 = BitVec.ofNat 16 (a.toNat + 1) := by
  rw [BitVec.ofNat_add, ← eq_ofNat_of_toNat_eq rfl]
  rfl

/-- The statements' low and high byte are the model's (R53). -/
theorem loByte_eq_lo (w : Addr) : loByte w = lo w :=
  BitVec.eq_of_toNat_eq (loByte_toNat w)

theorem hiByte_eq_hi (w : Addr) : hiByte w = hi w := by
  have hlt : w.toNat / 256 < 2 ^ 8 := by have := w.isLt; omega
  exact BitVec.eq_of_toNat_eq ((hiByte_toNat w).trans (Nat.mod_eq_of_lt hlt).symm)

/-- An index is added modulo 65536 (R66, R67, R69). -/
theorem add_zext16_toNat (w : Addr) (v : Byte) : (w + zext16 v).toNat = (w.toNat + v.toNat) % 65536 := by
  rw [BitVec.toNat_add, zext16_toNat]

/-- An index is added modulo 256 to a zero-page address (R63, R64). -/
theorem zext16_add_toNat (z v : Byte) : (zext16 (z + v)).toNat = (z.toNat + v.toNat) % 256 := by
  rw [zext16_toNat, BitVec.toNat_add]

/-! ### Words in memory -/

/-- A word read is little-endian (R51). -/
theorem Memory.read16_toNat (m : Memory) (a : Addr) :
    (m.read16 a).toNat = (m.read (a + 1)).toNat * 256 + (m.read a).toNat :=
  word_toNat _ _

/-- A pointer read takes its high byte inside the zero page (R52). -/
theorem Memory.zpRead16_toNat (m : Memory) (p : Byte) : (m.zpRead16 p).toNat =
    (m.read (BitVec.ofNat 16 ((p.toNat + 1) % 256))).toNat * 256 + (m.read (BitVec.ofNat 16 p.toNat)).toNat := by
  rw [Memory.zpRead16, word_toNat, zext16_eq_ofNat, zext16_eq_ofNat, BitVec.toNat_add]
  rfl

/-- The statements' pointer word is the model's. -/
theorem zpRead16_toNat_eq_zpWord (s : State) (p : Byte) : (s.mem.zpRead16 p).toNat = zpWord s p.toNat := by
  rw [Memory.zpRead16_toNat, zpWord, Nat.mod_eq_of_lt p.isLt]
  rfl

/-! ### The forms recorded as NoAddressing -/

/-- The resolver refuses a form recorded as NoAddressing (R70, R85). -/
theorem ea_of_noAddressing {o : Operand} (s : State) (h : o.asm.mode = .noAddressing) : s.ea o = none := by
  rw [← Option.isNone_iff_eq_none, ← Option.not_isSome, State.ea, effectiveAddress_isSome, h]
  rfl

/-- A form recorded as NoAddressing is not an immediate, so its operand byte would be read at an address. -/
theorem operandByte_of_noAddressing {o : Operand} (s : State) (h : o.asm.mode = .noAddressing) :
    s.operandByte o = none := by
  cases o with
  | accumulator | implied | relative | indirect => rfl
  | _ => cases h

end Sys2Proof.Machine
end

section
/-! SUPPORT. The instructions whose rule can write memory (20_memory.md R55), and that the others leave it. -/

namespace Sys2Proof.Machine

open Sys2Proof

/-- The instruction is a store, the memory form of a shift, INC or DEC, or a push. -/
def StoresToMemory (i : Instr) : Prop :=
  i.mnemonic ∈ [.sta, .stx, .sty, .asl, .lsr, .rol, .ror, .inc, .dec, .pha, .php, .jsr] ∧ i.operand ≠ .accumulator

/-- The answer is a next state with the memory of `s`. -/
def KeepsMemory (s : State) (r : Result) : Prop := ∃ t, r = .next t ∧ t.mem = s.mem

/-- A rule on the operand byte leaves memory if it leaves it for every byte: so does the request that finds no
byte (R273). -/
theorem withOperand_keepsMemory {i : Instr} {s : State} {rule : Byte → State} (h : ∀ m, (rule m).mem = s.mem) :
    KeepsMemory s (withOperand i s rule) := by
  obtain ⟨t, ht, ⟨m, -, rfl⟩ | ⟨-, rfl⟩⟩ := withOperand_next i s rule
  · exact ⟨_, ht, h m⟩
  · exact ⟨_, ht, rfl⟩

theorem load_keepsMemory (r : Reg) (s : State) (i : Instr) : KeepsMemory s (load r i s) :=
  withOperand_keepsMemory fun m => s.set_mem r m

theorem addWithCarry_keepsMemory (s : State) (i : Instr) : KeepsMemory s (addWithCarry i s) :=
  withOperand_keepsMemory fun _ => rfl

theorem subWithBorrow_keepsMemory (s : State) (i : Instr) : KeepsMemory s (subWithBorrow i s) :=
  withOperand_keepsMemory fun _ => rfl

theorem logic_keepsMemory (op : Byte → Byte → Byte) (s : State) (i : Instr) : KeepsMemory s (logic op i s) :=
  withOperand_keepsMemory fun _ => rfl

theorem compareReg_keepsMemory (r : Reg) (s : State) (i : Instr) : KeepsMemory s (compareReg r i s) :=
  withOperand_keepsMemory fun _ => rfl

theorem bitTest_keepsMemory (s : State) (i : Instr) : KeepsMemory s (bitTest i s) :=
  withOperand_keepsMemory fun _ => rfl

/-- The rule an instruction is dispatched to leaves memory whatever the instruction's operand (R103). -/
theorem KeepsMemory.of_rule {i : Instr} {s : State} {rule : Instr → State → Result}
    (hr : ∀ j, KeepsMemory s (rule j s)) (he : exec i = rule i) : KeepsMemory s (exec i s) := by
  rw [he]
  exact hr i

/-- A pull leaves memory, in both stack orders (R201, R203). -/
theorem State.pop8_mem (s : State) : s.pop8.2.mem = s.mem := by rw [State.pop8_state, State.setSP_mem]
theorem State.pop16_mem (s : State) : s.pop16.2.mem = s.mem := s.pop8.2.pop8_mem.trans s.pop8_mem

/-- Every instruction that is no store leaves memory: it works on its operand byte, it pulls, or it works on
registers, P and PC alone. -/
theorem exec_keepsMemory (i : Instr) (s : State) (hi : ¬ StoresToMemory i) : KeepsMemory s (exec i s) := by
  cases i with
  | ldaImm | ldaZp | ldaZpX | ldaAbs | ldaAbsX | ldaAbsY | ldaIndX | ldaIndY =>
    exact .of_rule (load_keepsMemory .a s) rfl
  | ldxImm | ldxZp | ldxZpY | ldxAbs | ldxAbsY => exact .of_rule (load_keepsMemory .x s) rfl
  | ldyImm | ldyZp | ldyZpX | ldyAbs | ldyAbsX => exact .of_rule (load_keepsMemory .y s) rfl
  | adcImm | adcZp | adcZpX | adcAbs | adcAbsX | adcAbsY | adcIndX | adcIndY =>
    exact .of_rule (addWithCarry_keepsMemory s) rfl
  | sbcImm | sbcZp | sbcZpX | sbcAbs | sbcAbsX | sbcAbsY | sbcIndX | sbcIndY =>
    exact .of_rule (subWithBorrow_keepsMemory s) rfl
  | andImm | andZp | andZpX | andAbs | andAbsX | andAbsY | andIndX | andIndY =>
    exact .of_rule (logic_keepsMemory (· &&& ·) s) rfl
  | oraImm | oraZp | oraZpX | oraAbs | oraAbsX | oraAbsY | oraIndX | oraIndY =>
    exact .of_rule (logic_keepsMemory (· ||| ·) s) rfl
  | eorImm | eorZp | eorZpX | eorAbs | eorAbsX | eorAbsY | eorIndX | eorIndY =>
    exact .of_rule (logic_keepsMemory (· ^^^ ·) s) rfl
  | cmpImm | cmpZp | cmpZpX | cmpAbs | cmpAbsX | cmpAbsY | cmpIndX | cmpIndY =>
    exact .of_rule (compareReg_keepsMemory .a s) rfl
  | cpxImm | cpxZp | cpxAbs => exact .of_rule (compareReg_keepsMemory .x s) rfl
  | cpyImm | cpyZp | cpyAbs => exact .of_rule (compareReg_keepsMemory .y s) rfl
  | bitZp | bitAbs => exact .of_rule (bitTest_keepsMemory s) rfl
  | pla | plp => exact ⟨_, rfl, s.pop8_mem⟩
  | rts => exact ⟨_, rfl, s.pop16_mem⟩
  | rti => exact ⟨_, rfl, (State.pop16_mem _).trans s.pop8_mem⟩
  | tax | tay | tsx | txa | tya | txs | aslAcc | lsrAcc | rolAcc | rorAcc | inx | iny | dex | dey
  | bcc | bcs | beq | bne | bmi | bpl | bvc | bvs | jmpAbs | jmpInd
  | clc | sec | cli | sei | cld | sed | clv | brk | nop => exact ⟨_, rfl, rfl⟩
  | staZp | staZpX | staAbs | staAbsX | staAbsY | staIndX | staIndY | stxZp | stxZpY | stxAbs
  | styZp | styZpX | styAbs | aslZp | aslZpX | aslAbs | aslAbsX | lsrZp | lsrZpX | lsrAbs | lsrAbsX
  | rolZp | rolZpX | rolAbs | rolAbsX | rorZp | rorZpX | rorAbs | rorAbsX
  | incZp | incZpX | incAbs | incAbsX | decZp | decZpX | decAbs | decAbsX | pha | php | jsr =>
    exact absurd ⟨List.mem_of_elem_eq_true rfl, nofun⟩ hi

end Sys2Proof.Machine
end

section
/-! The statements about memory and addressing (20_memory.md). -/

namespace Sys2Proof.Proofs

open Sys2Proof Sys2Proof.Machine Sys2Proof.Claims

/-- Settles O32: the word operations of R51 and R52 with their addresses as numbers. -/
theorem wordsAreLittleEndian : Obligations.WordsAreLittleEndian := by
  intro m a w p
  rw [← succ_eq_ofNat, ← loByte_eq_lo, ← hiByte_eq_hi]
  exact ⟨m.read16_toNat a, fun b => m.read_write16 a b w, m.zpRead16_toNat p⟩

/-- Settles O34: an operand field is the bytes at PC, and the address formed from it is known by its number. -/
theorem resolverGivesTheEffectiveAddress : Obligations.ResolverGivesTheEffectiveAddress := by
  intro s z w
  have hw : (s.mem.read16 s.pc).toNat = w := s.mem.read16_toNat s.pc
  have hwX : (s.mem.read16 s.pc + zext16 s.x).toNat = (w + s.x.toNat) % 65536 := by rw [add_zext16_toNat, hw]
  have hwY : (s.mem.read16 s.pc + zext16 s.y).toNat = (w + s.y.toNat) % 65536 := by rw [add_zext16_toNat, hw]
  have hindX : (s.mem.zpRead16 (s.mem.read s.pc + s.x)).toNat = zpWord s ((z + s.x.toNat) % 256) := by
    rw [zpRead16_toNat_eq_zpWord, BitVec.toNat_add]
  have hindY : (s.mem.zpRead16 (s.mem.read s.pc) + zext16 s.y).toNat = (zpWord s z + s.y.toNat) % 65536 := by
    rw [add_zext16_toNat, zpRead16_toNat_eq_zpWord]
  exact ⟨eq_some_ofNat rfl rfl, eq_some_ofNat rfl (zext16_toNat _), eq_some_ofNat rfl (zext16_add_toNat _ _),
    eq_some_ofNat rfl (zext16_add_toNat _ _), eq_some_ofNat rfl hw, eq_some_ofNat rfl hwX, eq_some_ofNat rfl hwY,
    eq_some_ofNat rfl hindX, eq_some_ofNat rfl hindY⟩

/-- Settles O35: there is no address and no operand byte, and the two ways of using the resolver then raise
InvalidAddressingRequest. -/
theorem resolvingNoAddressingHalts : Obligations.ResolvingNoAddressingHalts := by
  intro i s hi
  refine ⟨rfl, fun rule => ?_, fun rule => ?_, rfl⟩
  · rw [withEA, ea_of_noAddressing s hi]
    rfl
  · rw [withOperand, operandByte_of_noAddressing s hi]
    rfl

/-- Settles O36: every instruction completes, and one that is no store keeps memory. -/
theorem onlyStoresWriteMemory : Obligations.OnlyStoresWriteMemory := by
  intro i s
  by_cases hi : StoresToMemory i
  · obtain ⟨t, ht⟩ := exec_next i s
    exact ⟨t, ht, .inr hi⟩
  · obtain ⟨t, ht, hmem⟩ := exec_keepsMemory i s hi
    exact ⟨t, ht, .inl hmem⟩

end Sys2Proof.Proofs
end

section
/-! SUPPORT. The three readings of R84 against each other over every instruction and every opcode byte: the opcode
map the decoder reads, the bytes the encoder writes, and the record table (30_encoding.md R80 to R86). -/

namespace Sys2Proof

open Sys2Proof.Claims

/-! ### The decoder by format (R80) -/

theorem decode_f1 {op : Byte} {i : Instr} (h : shapeOf op = some (.f1 i)) (rest : List Byte) :
    decode (op :: rest) = .ok (i, rest) := by
  simp only [decode, h]

theorem decode_f2 {op : Byte} {make : Byte → Instr} (h : shapeOf op = some (.f2 make)) (b : Byte)
    (rest : List Byte) : decode (op :: b :: rest) = .ok (make b, rest) := by
  simp only [decode, h]

theorem decode_f3 {op : Byte} {make : Addr → Instr} (h : shapeOf op = some (.f3 make)) (l hb : Byte)
    (rest : List Byte) : decode (op :: l :: hb :: rest) = .ok (make (word hb l), rest) := by
  simp only [decode, h]

theorem decode_unimplemented {op : Byte} (h : shapeOf op = none) (rest : List Byte) :
    decode (op :: rest) = .error (.unimplementedOpcode op) := by
  simp only [decode, h]

/-- With two bytes after it, an opcode byte of any format is an instruction. -/
theorem decode_three_ok {op : Byte} (h : shapeOf op ≠ none) (l hb : Byte) :
    ∃ i rest, decode [op, l, hb] = .ok (i, rest) := by
  obtain ⟨sh, hsh⟩ := Option.ne_none_iff_exists'.mp h
  cases sh with
  | f1 i => exact ⟨i, _, decode_f1 hsh _⟩
  | f2 make => exact ⟨make l, _, decode_f2 hsh l _⟩
  | f3 make => exact ⟨make (word hb l), _, decode_f3 hsh l hb _⟩

/-! ### Round trips -/

/-- The opcode map has the instruction, in the format of its operand field. The opcode byte does not depend on the
operand, so that it is named with the operand 0. -/
inductive Mapped : Instr → Prop
  | f1 {i : Instr} (h : shapeOf i.opcode = some (.f1 i)) : Mapped i
  | f2 {make : Byte → Instr} (h : shapeOf (make 0).opcode = some (.f2 make)) (b : Byte) : Mapped (make b)
  | f3 {make : Addr → Instr} (h : shapeOf (make 0).opcode = some (.f3 make)) (w : Addr) : Mapped (make w)

/-- All 151 instructions are in the opcode map (R84). -/
theorem mapped (i : Instr) : Mapped i := by
  cases i with
  | brk | php | aslAcc | clc | plp | rolAcc | sec | rti | pha | lsrAcc | cli | rts | pla | rorAcc | sei | dey | txa
  | tya | txs | tay | tax | clv | tsx | iny | dex | cld | inx | nop | sed => exact .f1 rfl
  | oraIndX | oraZp | aslZp | oraImm | bpl | oraIndY | oraZpX | aslZpX | andIndX | bitZp | andZp | rolZp | andImm
  | bmi | andIndY | andZpX | rolZpX | eorIndX | eorZp | lsrZp | eorImm | bvc | eorIndY | eorZpX | lsrZpX | adcIndX
  | adcZp | rorZp | adcImm | bvs | adcIndY | adcZpX | rorZpX | staIndX | styZp | staZp | stxZp | bcc | staIndY
  | styZpX | staZpX | stxZpY | ldyImm | ldaIndX | ldxImm | ldyZp | ldaZp | ldxZp | ldaImm | bcs | ldaIndY | ldyZpX
  | ldaZpX | ldxZpY | cpyImm | cmpIndX | cpyZp | cmpZp | decZp | cmpImm | bne | cmpIndY | cmpZpX | decZpX | cpxImm
  | sbcIndX | cpxZp | sbcZp | incZp | sbcImm | beq | sbcIndY | sbcZpX | incZpX => exact .f2 rfl _
  | oraAbs | aslAbs | oraAbsY | oraAbsX | aslAbsX | jsr | bitAbs | andAbs | rolAbs | andAbsY | andAbsX | rolAbsX
  | jmpAbs | eorAbs | lsrAbs | eorAbsY | eorAbsX | lsrAbsX | jmpInd | adcAbs | rorAbs | adcAbsY | adcAbsX | rorAbsX
  | styAbs | staAbs | stxAbs | staAbsY | staAbsX | ldyAbs | ldaAbs | ldxAbs | ldaAbsY | ldyAbsX | ldaAbsX | ldxAbsY
  | cpyAbs | cmpAbs | decAbs | cmpAbsY | cmpAbsX | decAbsX | cpxAbs | sbcAbs | incAbs | sbcAbsY | sbcAbsX
  | incAbsX => exact .f3 rfl _

theorem encode_f1 {op : Byte} {i : Instr} (h : shapeOf op = some (.f1 i)) : encode i = [op] := by
  obtain ⟨hop, hbytes⟩ := shapeOf_agrees h
  rw [encode, hop, hbytes]

theorem encode_f2 {op : Byte} {make : Byte → Instr} (h : shapeOf op = some (.f2 make)) (b : Byte) :
    encode (make b) = [op, b] := by
  obtain ⟨hop, hbytes⟩ := shapeOf_agrees h b
  rw [encode, hop, hbytes]

theorem encode_f3 {op : Byte} {make : Addr → Instr} (h : shapeOf op = some (.f3 make)) (w : Addr) :
    encode (make w) = [op, loByte w, hiByte w] := by
  obtain ⟨hop, hbytes⟩ := shapeOf_agrees h w
  rw [encode, hop, hbytes]

theorem decode_encode (i : Instr) (rest : List Byte) : decode (encode i ++ rest) = .ok (i, rest) := by
  cases mapped i with
  | f1 h =>
    rw [encode_f1 h]
    exact decode_f1 h rest
  | f2 h b =>
    rw [encode_f2 h]
    exact decode_f2 h b rest
  | f3 h w =>
    rw [encode_f3 h]
    simpa using decode_f3 h (loByte w) (hiByte w) rest

theorem eq_encode_of_decode {bytes rest : List Byte} {i : Instr} (h : decode bytes = .ok (i, rest)) :
    bytes = encode i ++ rest := by
  obtain ⟨op, rfl, hs⟩ | ⟨op, b, make, rfl, hs, rfl⟩ | ⟨op, l, hb, make, rfl, hs, rfl⟩ := decode_ok_cases h
  · rw [encode_f1 hs]
    rfl
  · rw [encode_f2 hs]
    rfl
  · rw [encode_f3 hs, loByte_word, hiByte_word]
    rfl

/-! ### The record table -/

open Laws.OpTableRow in
/-- The rows of Laws/PerInstr.lean, put together: every instruction has its record (R84, R87). -/
theorem opTableRow (i : Instr) : Statement i :=
  i.rec brk oraIndX oraZp aslZp php oraImm aslAcc oraAbs aslAbs bpl oraIndY oraZpX aslZpX clc oraAbsY oraAbsX aslAbsX
    jsr andIndX bitZp andZp rolZp plp andImm rolAcc bitAbs andAbs rolAbs bmi andIndY andZpX rolZpX sec andAbsY
    andAbsX rolAbsX rti eorIndX eorZp lsrZp pha eorImm lsrAcc jmpAbs eorAbs lsrAbs bvc eorIndY eorZpX lsrZpX cli
    eorAbsY eorAbsX lsrAbsX rts adcIndX adcZp rorZp pla adcImm rorAcc jmpInd adcAbs rorAbs bvs adcIndY adcZpX
    rorZpX sei adcAbsY adcAbsX rorAbsX staIndX styZp staZp stxZp dey txa styAbs staAbs stxAbs bcc staIndY styZpX
    staZpX stxZpY tya staAbsY txs staAbsX ldyImm ldaIndX ldxImm ldyZp ldaZp ldxZp tay ldaImm tax ldyAbs ldaAbs
    ldxAbs bcs ldaIndY ldyZpX ldaZpX ldxZpY clv ldaAbsY tsx ldyAbsX ldaAbsX ldxAbsY cpyImm cmpIndX cpyZp cmpZp
    decZp iny cmpImm dex cpyAbs cmpAbs decAbs bne cmpIndY cmpZpX decZpX cld cmpAbsY cmpAbsX decAbsX cpxImm sbcIndX
    cpxZp sbcZp incZp inx sbcImm nop cpxAbs sbcAbs incAbs beq sbcIndY sbcZpX incZpX sed sbcAbsY sbcAbsX incAbsX

/-- The 256 bytes in order. -/
def allBytes : List Byte := (List.finRange 256).map BitVec.ofFin

theorem mem_allBytes (op : Byte) : op ∈ allBytes :=
  List.mem_map.mpr ⟨op.toFin, List.mem_finRange _, rfl⟩

theorem allBytes_nodup : allBytes.Nodup :=
  (List.nodup_finRange 256).map fun _ _ => BitVec.ofFin.inj

/-- R86's list is the gaps of the opcode map. -/
theorem illegalBytes_eq_filter : illegalBytes = allBytes.filter fun op => (shapeOf op).isNone := by
  decide

/-- The record table has the opcodes of the opcode map, in order. -/
theorem opTable_opcodes_eq_filter :
    opTable.map OpRecord.opcode = allBytes.filter fun op => (shapeOf op).isSome := by
  decide

theorem opTable_opcodes_nodup : (opTable.map OpRecord.opcode).Nodup := by
  rw [opTable_opcodes_eq_filter]
  exact allBytes_nodup.filter _

theorem shapeOf_eq_none_iff (op : Byte) : shapeOf op = none ↔ op ∈ illegalBytes := by
  rw [illegalBytes_eq_filter, List.mem_filter, and_iff_right (mem_allBytes op), Option.isNone_iff_eq_none]

theorem lookup_eq_none_iff (op : Byte) : lookup op = none ↔ shapeOf op = none := by
  have hfind : lookup op = none ↔ op ∉ opTable.map OpRecord.opcode := by simp [lookup]
  rw [hfind, opTable_opcodes_eq_filter, List.mem_filter, and_iff_right (mem_allBytes op),
    Option.not_isSome_iff_eq_none]

end Sys2Proof
end

section
/-! SUPPORT. The assembler's branch offset (30_encoding.md R89) and the advance after a control transfer
(40_fetch_decode.md R105 to R107). -/

namespace Sys2Proof.Machine

open Sys2Proof Sys2Proof.Claims

theorem branchOffset_eq_some_iff (at_ target : Addr) (o : Byte) :
    branchOffset at_ target = some o ↔
      (-128 ≤ (target - (at_ + 2)).toInt ∧ (target - (at_ + 2)).toInt ≤ 127) ∧
        BitVec.ofInt 8 (target - (at_ + 2)).toInt = o := by
  simp [branchOffset]

/-- The offset byte holds the whole distance: extending its sign gives the distance back. -/
theorem sext16_ofInt {d : Int} (hlo : -128 ≤ d) (hhi : d ≤ 127) :
    sext16 (BitVec.ofInt 8 d) = BitVec.ofInt 16 d := by
  apply BitVec.eq_of_toInt_eq
  rw [sext16, BitVec.toInt_signExtend_of_le (by decide), BitVec.toInt_ofInt_eq_self (by decide) (by omega) (by omega),
    BitVec.toInt_ofInt_eq_self (by decide) (by omega) (by omega)]

/-- The signed distance between two addresses leads from the one to the other. -/
theorem add_ofInt_toInt_sub (a b : Addr) : a + BitVec.ofInt 16 (b - a).toInt = b := by
  rw [BitVec.ofInt_toInt, BitVec.add_comm, BitVec.sub_add_cancel]

/-- The signed distance of a near target is the one it was made with. -/
theorem toInt_add_ofInt_sub (a : Addr) {d : Int} (hlo : -128 ≤ d) (hhi : d ≤ 127) :
    (a + BitVec.ofInt 16 d - a).toInt = d := by
  rw [BitVec.add_comm, BitVec.add_sub_cancel]
  exact BitVec.toInt_ofInt_eq_self (by decide) (by omega) (by omega)

/-- Near targets are those an assembler can encode (R89). -/
theorem branchOffset_isSome_iff (at_ target : Addr) :
    (branchOffset at_ target).isSome = true ↔
      ∃ d : Int, -128 ≤ d ∧ d ≤ 127 ∧ target = at_ + 2 + BitVec.ofInt 16 d := by
  rw [Option.isSome_iff_exists]
  constructor
  · rintro ⟨o, ho⟩
    obtain ⟨⟨hlo, hhi⟩, -⟩ := (branchOffset_eq_some_iff at_ target o).mp ho
    exact ⟨_, hlo, hhi, (add_ofInt_toInt_sub _ target).symm⟩
  · rintro ⟨d, hlo, hhi, rfl⟩
    refine ⟨BitVec.ofInt 8 d, (branchOffset_eq_some_iff _ _ _).mpr ?_⟩
    rw [toInt_add_ofInt_sub _ hlo hhi]
    exact ⟨⟨hlo, hhi⟩, rfl⟩

/-- The offset byte an assembler computes leads to the target (R89). -/
theorem branchTarget_of_branchOffset {at_ target : Addr} {o : Byte} (h : branchOffset at_ target = some o) :
    branchTarget at_ o = target := by
  obtain ⟨⟨hlo, hhi⟩, rfl⟩ := (branchOffset_eq_some_iff at_ target o).mp h
  rw [branchTarget, sext16_ofInt hlo hhi, add_ofInt_toInt_sub]

/-- A target given by its number, modulo 65536, as an address (R9). -/
theorem ofInt_toNat_add (at_ : Addr) (d : Int) :
    BitVec.ofInt 16 (at_.toNat + 2 + d) = at_ + 2 + BitVec.ofInt 16 d := by
  rw [BitVec.ofInt_add, BitVec.ofInt_add, BitVec.ofInt_natCast, ← eq_ofNat_of_toNat_eq rfl]
  rfl

/-- A taken branch continues at the target its offset byte encodes: the base of R225, the byte after the offset,
is the branch's address + 2. -/
theorem branch_fetched (o : Byte) (s : State) : branch true o s.fetched = s.setPC (branchTarget s.pc o) := by
  have hbase : s.pc + 1 + 1 = s.pc + 2 := BitVec.add_assoc s.pc 1 1
  rw [branchTarget, ← hbase]
  rfl

/-- The advance leaves a control transfer's PC, but for the literal comparison where it is the byte after the
opcode. -/
theorem advance_of_controlTransfer {i : Instr} {pcb : Addr} {t : State} (hi : i.isControlTransfer = true)
    (ht : t.cfg.pcCompareAdvance = false ∨ t.pc ≠ pcb) : advance i pcb t = t := by
  unfold advance
  split
  · rfl
  · obtain hcfg | hpc := ht
    · rw [hcfg, if_neg Bool.false_ne_true, if_pos hi]
    · rw [if_neg hpc, if_pos hi, ite_self]

end Sys2Proof.Machine
end

section
/-! The statements about the encoding (30_encoding.md). -/

namespace Sys2Proof.Proofs

open Sys2Proof Sys2Proof.Machine Sys2Proof.Claims

/-- Settles O37: every instruction is in the opcode map under the byte its encoding begins with, and has its record. -/
theorem decodeAfterEncode : Obligations.DecodeAfterEncode := by
  intro i rest
  obtain ⟨-, -, hwf⟩ := opTableRow i
  exact ⟨hwf, decode_encode i rest⟩

/-- Settles O38: in each of the three formats the opcode map gives instructions of the byte it is read at. -/
theorem encodeAfterDecode : Obligations.EncodeAfterDecode :=
  fun _ _ _ => eq_encode_of_decode

/-- Settles O39: the listed bytes are the gaps of the opcode map, and those of the record table. -/
theorem illegalBytesAreTheListed105 : Obligations.IllegalBytesAreTheListed105 := by
  refine ⟨rfl, fun op => ⟨?_, fun hop rest => ?_, fun hop l h => ?_⟩⟩
  · rw [lookup_eq_none_iff, shapeOf_eq_none_iff]
  · exact decode_unimplemented ((shapeOf_eq_none_iff op).mpr hop) rest
  · exact decode_three_ok (mt (shapeOf_eq_none_iff op).mp hop) l h

/-- Settles O40: what decodes has the opcode and the length of its encoding, and its record holds these. -/
theorem opcodeTableAgreesWithTheDecoder : Obligations.OpcodeTableAgreesWithTheDecoder := by
  refine ⟨rfl, opTable_opcodes_nodup, fun op l h i rest hd => ?_⟩
  have hbytes : [op, l, h] = encode i ++ rest := eq_encode_of_decode hd
  have hop : op = i.opcode := (List.cons.inj hbytes).1
  have hlength : (encode i).length + rest.length = 3 := by rw [← List.length_append, ← hbytes]; rfl
  obtain ⟨⟨cycles, hrow⟩, -, -⟩ := opTableRow i
  exact ⟨_, hop ▸ hrow, rfl, rfl, rfl, hlength, rfl⟩

/-- Settles O57: the offset byte is the whole distance from the next instruction, the taken branch adds it to that
instruction's address, and no advance follows it. -/
theorem assembledBranchReachesItsTarget : Obligations.AssembledBranchReachesItsTarget := by
  intro s target
  constructor
  · simp only [ofInt_toNat_add]
    exact branchOffset_isSome_iff s.pc target
  · intro o ho hrun hop hoff hz hadvance
    have hd : decode s.fetchBytes = .ok (.bne o, [s.mem.read (s.pc + 2)]) := by
      rw [State.fetchBytes, hop, hoff]
      exact decode_encode (.bne o) _
    have hexec : exec (.bne o) s.fetched = .next (s.setPC target) := by
      have htaken : (!s.fetched.flag .z) = true := congrArg not hz
      rw [← branchTarget_of_branchOffset ho, ← branch_fetched, ← htaken]
      rfl
    rw [step_of_decode hrun hd hexec, advance_of_controlTransfer rfl hadvance]
    rfl

/-- Settles O41: each word is the encoding of its instruction. -/
theorem sampleWordsDecode : Obligations.SampleWordsDecode :=
  ⟨decode_encode .brk [], decode_encode (.ldaImm 0x05) [], decode_encode (.ldxImm 0xFF) [], decode_encode .tax [],
    decode_encode .inx [], decode_encode (.adcAbs 0x1234) [], decode_encode (.rorZpX 0xFF) [], decode_encode .plp [],
    decode_encode (.jmpInd 0x40FF) [], decode_encode .clv []⟩

end Sys2Proof.Proofs
end

section
/-! SUPPORT. An instruction's length and whether it is a control transfer, as the statements read them (30_encoding.md
R84, 40_fetch_decode.md R105). -/

namespace Sys2Proof

open Sys2Proof.Claims

theorem Instr.isControlTransfer_iff (i : Instr) : i.isControlTransfer = true ↔ i.mnemonic ∈ controlTransfers := by
  rw [Instr.isControlTransfer]
  cases i.mnemonic <;> decide

theorem Instr.isControlTransfer_eq_false_iff (i : Instr) :
    i.isControlTransfer = false ↔ i.mnemonic ∉ controlTransfers := by
  rw [← i.isControlTransfer_iff, Bool.not_eq_true]

theorem length_encode (i : Instr) : (encode i).length = i.length := by
  rw [encode, Instr.length]
  cases i.operand <;> rfl

/-- RTS and RTI have no operand (R107). -/
theorem length_encode_of_return {i : Instr} (hi : i.mnemonic ∈ [.rts, .rti]) : (encode i).length = 1 := by
  have helem := List.elem_eq_true_of_mem hi
  cases i with
  | rts | rti => rfl
  | _ => cases helem

end Sys2Proof
end

section
/-! SUPPORT. The step from a running state, the halts it can make, and the advance in the terms of the statements
(40_fetch_decode.md R100 to R109). -/

namespace Sys2Proof.Machine

open Sys2Proof Sys2Proof.Claims

/-! ### Fetch and dispatch -/

theorem step_of_halted {s : State} {c : HaltCause} (hr : s.run = .halted c) : step s = .fault (.notRunning c) := by
  simp only [step, hr]

theorem step_of_unimplemented {s : State} (hr : s.run = .running) (hop : shapeOf (s.mem.read s.pc) = none) :
    step s = .next s.raiseUnimplemented := by
  simp only [step, hr, State.fetchBytes, decode_unimplemented hop]

/-- Decoding three bytes fails on the opcode byte alone, and an instruction's rule always completes. -/
theorem step_next_of_running {s : State} (hr : s.run = .running) : ∃ t, step s = .next t := by
  by_cases hop : shapeOf (s.mem.read s.pc) = none
  · exact ⟨_, step_of_unimplemented hr hop⟩
  · obtain ⟨i, rest, hd⟩ := decode_three_ok hop (s.mem.read (s.pc + 1)) (s.mem.read (s.pc + 2))
    obtain ⟨u, hu⟩ := exec_next i s.fetched
    exact ⟨_, step_of_decode hr hd hu⟩

/-- The step of a decoded instruction: its rule, then the advance (R103, R108). -/
theorem exec_of_step {s t : State} {i : Instr} {rest : List Byte} (hr : s.run = .running)
    (hd : decode s.fetchBytes = .ok (i, rest)) (h : step s = .next t) :
    ∃ u, exec i s.fetched = .next u ∧ t = advance i (s.pc + 1) u := by
  obtain ⟨u, hu⟩ := exec_next i s.fetched
  cases h.symm.trans (step_of_decode hr hd hu)
  exact ⟨u, hu, rfl⟩

theorem opcode_of_decode_fetchBytes {s : State} {i : Instr} {rest : List Byte}
    (hd : decode s.fetchBytes = .ok (i, rest)) : s.mem.read s.pc = i.opcode :=
  (List.cons.inj (eq_encode_of_decode hd)).1

/-- What a step leaves in Run: it goes on, or BRK or an unknown opcode halted it (R109). -/
theorem step_run {s t : State} (h : step s = .next t) :
    t.run = .running ∨ (t.run = .halted .brk ∧ s.mem.read s.pc = 0x00) ∨
      (t.run = .halted (.unimplementedOpcode (s.mem.read s.pc) s.pc) ∧ s.mem.read s.pc ∈ illegalBytes) := by
  obtain ⟨hr, ⟨hop, rfl⟩ | ⟨i, rest, u, hd, hu, rfl⟩⟩ := step_cases h
  · exact .inr (.inr ⟨rfl, (shapeOf_eq_none_iff _).mp hop⟩)
  · rw [advance_run]
    obtain ⟨-, hrun | ⟨rfl, hbrk⟩, -⟩ := exec_frame hu
    · exact .inl (hrun.trans hr)
    · exact .inr (.inl ⟨hbrk, opcode_of_decode_fetchBytes hd⟩)

theorem exec_fetched_cfg {i : Instr} {s t : State} (h : exec i s.fetched = .next t) : t.cfg = s.cfg := by
  obtain ⟨hcfg, -, -⟩ := exec_frame h
  exact hcfg

/-- A control transfer does not halt: BRK, which does, is none (R105). -/
theorem exec_run_of_controlTransfer {i : Instr} {s t : State} (h : exec i s = .next t)
    (hi : i.mnemonic ∈ controlTransfers) : t.run = s.run := by
  obtain ⟨-, hrun | ⟨rfl, -⟩, -⟩ := exec_frame h
  · exact hrun
  · exact absurd hi (by decide)

theorem step_cfg {s t : State} (h : step s = .next t) : t.cfg = s.cfg := by
  obtain ⟨-, ⟨-, rfl⟩ | ⟨i, rest, u, -, hu, rfl⟩⟩ := step_cases h
  · rfl
  · exact (advance_cfg i _ u).trans (exec_fetched_cfg hu)

/-! ### The advance -/

theorem nextAddr_eq_ofNat (i : Instr) (pcb : Addr) :
    nextAddr i pcb = BitVec.ofNat 16 (pcb.toNat + ((encode i).length - 1)) := by
  rw [nextAddr, length_encode, BitVec.ofNat_add, BitVec.ofNat_toNat, BitVec.setWidth_eq]

/-- Counted from the opcode byte, the advance is the whole length (R106). -/
theorem nextAddr_succ_eq_ofNat (i : Instr) (pc : Addr) :
    nextAddr i (pc + 1) = BitVec.ofNat 16 (pc.toNat + (encode i).length) := by
  rw [nextAddr, ← length_encode, encode, List.length_cons, Nat.add_sub_cancel, BitVec.add_assoc, Nat.add_comm _ 1,
    BitVec.ofNat_add, BitVec.ofNat_add, BitVec.ofNat_toNat, BitVec.setWidth_eq]
  rfl

/-- The advance as R106 and R107 write it. -/
theorem advance_eq_ite (i : Instr) (pcb : Addr) (t : State) :
    advance i pcb t =
      if t.run ≠ .running then t
      else if t.cfg.pcCompareAdvance then (if t.pc = pcb then t.setPC (nextAddr i pcb) else t)
      else if i.mnemonic ∈ controlTransfers then t else t.setPC (nextAddr i pcb) := by
  unfold advance
  simp only [Instr.isControlTransfer_iff]
  cases t.run with
  | halted c => rfl
  | running => exact (if_neg (not_not_intro rfl)).symm

theorem advance_of_halted {i : Instr} {pcb : Addr} {t : State} {c : HaltCause} (hr : t.run = .halted c) :
    advance i pcb t = t := by
  simp only [advance, hr]

theorem advance_of_default {i : Instr} {pcb : Addr} {t : State} (hr : t.run = .running)
    (hcompare : t.cfg.pcCompareAdvance = false) :
    advance i pcb t = if i.mnemonic ∈ controlTransfers then t else t.setPC (nextAddr i pcb) := by
  rw [advance_eq_ite, if_neg (not_not_intro hr), hcompare, if_neg Bool.false_ne_true]

theorem advance_of_compare {i : Instr} {pcb : Addr} {t : State} (hr : t.run = .running)
    (hcompare : t.cfg.pcCompareAdvance = true) :
    advance i pcb t = if t.pc = pcb then t.setPC (nextAddr i pcb) else t := by
  rw [advance_eq_ite, if_neg (not_not_intro hr), if_pos hcompare]

end Sys2Proof.Machine
end

section
/-! SUPPORT. PC and PC_COMPARE_ADVANCE in an instruction's rule: only a control transfer writes PC (40_fetch_decode.md
R104, R105), and no rule reads the parameter, which is the advance's (R106, R107). -/

namespace Sys2Proof.Machine

open Sys2Proof Sys2Proof.Claims

/-- The same state under the value `b` of PC_COMPARE_ADVANCE. -/
def State.withCompare (s : State) (b : Bool) : State := { s with cfg := { s.cfg with pcCompareAdvance := b } }

/-- An update that leaves PC and does the same under either value of PC_COMPARE_ADVANCE. -/
def LocalUpdate (f : State → State) : Prop :=
  ∀ s, (f s).pc = s.pc ∧ ∀ b, f (s.withCompare b) = (f s).withCompare b

/-- A rule that completes, leaves PC and does the same under either value of PC_COMPARE_ADVANCE. -/
def LocalRule (rule : State → Result) : Prop :=
  ∀ s, ∃ t, rule s = .next t ∧ t.pc = s.pc ∧ ∀ b, rule (s.withCompare b) = .next (t.withCompare b)

/-! ### The rules on an operand -/

theorem withOperand_local {i : Instr} {rule : State → Byte → State} (h : ∀ m, LocalUpdate fun s => rule s m) :
    LocalRule fun s => withOperand i s (rule s) := by
  intro s
  obtain ⟨t, ht, ⟨m, hm, rfl⟩ | ⟨hm, rfl⟩⟩ := withOperand_next i s (rule s)
  · obtain ⟨hpc, hb⟩ := h m s
    refine ⟨_, ht, hpc, fun b => ?_⟩
    have hm' : (s.withCompare b).operandByte i.operand = some m := hm
    simp only [withOperand, hm']
    exact congrArg _ (hb b)
  · refine ⟨_, ht, rfl, fun b => ?_⟩
    have hm' : (s.withCompare b).operandByte i.operand = none := hm
    simp only [withOperand, hm']
    rfl

theorem withEA_local {i : Instr} {rule : State → Addr → State} (h : ∀ ea, LocalUpdate fun s => rule s ea) :
    LocalRule fun s => withEA i s (rule s) := by
  intro s
  obtain ⟨t, ht, ⟨ea, hea, rfl⟩ | ⟨hea, rfl⟩⟩ := withEA_next i s (rule s)
  · obtain ⟨hpc, hb⟩ := h ea s
    refine ⟨_, ht, hpc, fun b => ?_⟩
    have hea' : (s.withCompare b).ea i.operand = some ea := hea
    simp only [withEA, hea']
    exact congrArg _ (hb b)
  · refine ⟨_, ht, rfl, fun b => ?_⟩
    have hea' : (s.withCompare b).ea i.operand = none := hea
    simp only [withEA, hea']
    rfl

theorem load_local (r : Reg) (i : Instr) : LocalRule (load r i) :=
  withOperand_local fun m s => ⟨s.set_pc r m, fun _ => by cases r <;> rfl⟩

theorem addWithCarry_local (i : Instr) : LocalRule (addWithCarry i) :=
  withOperand_local fun _ _ => ⟨rfl, fun _ => rfl⟩

theorem subWithBorrow_local (i : Instr) : LocalRule (subWithBorrow i) :=
  withOperand_local fun _ _ => ⟨rfl, fun _ => rfl⟩

theorem logic_local (op : Byte → Byte → Byte) (i : Instr) : LocalRule (logic op i) :=
  withOperand_local fun _ _ => ⟨rfl, fun _ => rfl⟩

theorem compareReg_local (r : Reg) (i : Instr) : LocalRule (compareReg r i) :=
  withOperand_local fun _ _ => ⟨rfl, fun _ => by cases r <;> rfl⟩

theorem bitTest_local (i : Instr) : LocalRule (bitTest i) :=
  withOperand_local fun _ _ => ⟨rfl, fun _ => rfl⟩

theorem store_local (r : Reg) (i : Instr) : LocalRule (store r i) :=
  withEA_local fun _ _ => ⟨rfl, fun _ => by cases r <;> rfl⟩

theorem shiftMem_local (f : Byte → Bool → Shifted) (i : Instr) : LocalRule (shiftMem f i) :=
  withEA_local fun _ _ => ⟨rfl, fun _ => rfl⟩

theorem modifyMem_local (f : Byte → Byte) (i : Instr) : LocalRule (modifyMem f i) :=
  withEA_local fun _ _ => ⟨rfl, fun _ => rfl⟩

/-! ### The rules on registers -/

theorem transfer_local (src dst : Reg) : LocalRule (transfer src dst) := fun s =>
  ⟨_, rfl, s.set_pc dst _, fun _ => by cases src <;> cases dst <;> rfl⟩

theorem shiftA_local (f : Byte → Bool → Shifted) : LocalRule (shiftA f) := fun _ => ⟨_, rfl, rfl, fun _ => rfl⟩

theorem modifyReg_local (f : Byte → Byte) (r : Reg) : LocalRule (modifyReg f r) := fun s =>
  ⟨_, rfl, s.set_pc r _, fun _ => by cases r <;> rfl⟩

/-! ### The rules on the stack, which read the other parameter -/

theorem State.push8_withCompare (s : State) (b : Bool) (v : Byte) :
    (s.withCompare b).push8 v = (s.push8 v).withCompare b := by
  rw [State.push8_eq, State.push8_eq]
  rfl

theorem State.push16_withCompare (s : State) (b : Bool) (w : Addr) :
    (s.withCompare b).push16 w = (s.push16 w).withCompare b := by
  rw [State.push16, State.push8_withCompare, State.push8_withCompare]
  rfl

theorem State.pop8_withCompare (s : State) (b : Bool) :
    (s.withCompare b).pop8 = (s.pop8.1, s.pop8.2.withCompare b) := by
  rw [State.pop8_eq, State.pop8_eq]
  rfl

theorem State.pop16_withCompare (s : State) (b : Bool) :
    (s.withCompare b).pop16 = (s.pop16.1, s.pop16.2.withCompare b) := by
  simp only [State.pop16, State.pop8_withCompare]

theorem State.pop8_pc (s : State) : s.pop8.2.pc = s.pc := by rw [State.pop8_state, State.setSP_pc]

theorem pullA_withCompare (s : State) (b : Bool) : pullA (s.withCompare b) = (pullA s).withCompare b := by
  rw [pullA, State.pop8_withCompare]
  rfl

theorem pulledStatus_withCompare (s : State) (b : Bool) :
    (s.withCompare b).pop8.2.loadStatus (s.withCompare b).pop8.1 = (s.pop8.2.loadStatus s.pop8.1).withCompare b := by
  rw [State.pop8_withCompare]
  rfl

theorem callSubroutine_withCompare (w : Addr) (s : State) (b : Bool) :
    callSubroutine w (s.withCompare b) = (callSubroutine w s).withCompare b := by
  have hpushed := congrArg State.mem ((s.setMem (s.mem.write16 s.pc w)).push16_withCompare b (s.pc + 1))
  have hread := congrArg (Memory.read16 · s.pc) hpushed
  exact congrArg₂ State.setPC (s.push16_withCompare b (s.pc + 1)) hread

theorem returnFromSubroutine_withCompare (s : State) (b : Bool) :
    (s.withCompare b).pop16.2.setPC ((s.withCompare b).pop16.1 + 1) =
      (s.pop16.2.setPC (s.pop16.1 + 1)).withCompare b := by
  rw [State.pop16_withCompare]
  rfl

theorem returnFromInterrupt_withCompare (s : State) (b : Bool) :
    returnFromInterrupt (s.withCompare b) = (returnFromInterrupt s).withCompare b := by
  rw [returnFromInterrupt, pulledStatus_withCompare, State.pop16_withCompare]
  rfl

/-! ### All instructions -/

/-- The rule an instruction is dispatched to is local whatever the instruction's operand (R103). -/
theorem LocalRule.of_rule {i : Instr} {rule : Instr → State → Result} (hr : ∀ j, LocalRule (rule j))
    (he : exec i = rule i) : LocalRule (exec i) := by
  rw [he]
  exact hr i

/-- Every instruction that is no control transfer has a local rule. -/
theorem exec_local (i : Instr) (hi : i.isControlTransfer = false) : LocalRule (exec i) := by
  cases i with
  | ldaImm | ldaZp | ldaZpX | ldaAbs | ldaAbsX | ldaAbsY | ldaIndX | ldaIndY => exact .of_rule (load_local .a) rfl
  | ldxImm | ldxZp | ldxZpY | ldxAbs | ldxAbsY => exact .of_rule (load_local .x) rfl
  | ldyImm | ldyZp | ldyZpX | ldyAbs | ldyAbsX => exact .of_rule (load_local .y) rfl
  | staZp | staZpX | staAbs | staAbsX | staAbsY | staIndX | staIndY => exact .of_rule (store_local .a) rfl
  | stxZp | stxZpY | stxAbs => exact .of_rule (store_local .x) rfl
  | styZp | styZpX | styAbs => exact .of_rule (store_local .y) rfl
  | adcImm | adcZp | adcZpX | adcAbs | adcAbsX | adcAbsY | adcIndX | adcIndY => exact .of_rule addWithCarry_local rfl
  | sbcImm | sbcZp | sbcZpX | sbcAbs | sbcAbsX | sbcAbsY | sbcIndX | sbcIndY => exact .of_rule subWithBorrow_local rfl
  | andImm | andZp | andZpX | andAbs | andAbsX | andAbsY | andIndX | andIndY =>
    exact .of_rule (logic_local (· &&& ·)) rfl
  | oraImm | oraZp | oraZpX | oraAbs | oraAbsX | oraAbsY | oraIndX | oraIndY =>
    exact .of_rule (logic_local (· ||| ·)) rfl
  | eorImm | eorZp | eorZpX | eorAbs | eorAbsX | eorAbsY | eorIndX | eorIndY =>
    exact .of_rule (logic_local (· ^^^ ·)) rfl
  | cmpImm | cmpZp | cmpZpX | cmpAbs | cmpAbsX | cmpAbsY | cmpIndX | cmpIndY =>
    exact .of_rule (compareReg_local .a) rfl
  | cpxImm | cpxZp | cpxAbs => exact .of_rule (compareReg_local .x) rfl
  | cpyImm | cpyZp | cpyAbs => exact .of_rule (compareReg_local .y) rfl
  | bitZp | bitAbs => exact .of_rule bitTest_local rfl
  | aslZp | aslZpX | aslAbs | aslAbsX => exact .of_rule (shiftMem_local asl8) rfl
  | lsrZp | lsrZpX | lsrAbs | lsrAbsX => exact .of_rule (shiftMem_local lsr8) rfl
  | rolZp | rolZpX | rolAbs | rolAbsX => exact .of_rule (shiftMem_local rol8) rfl
  | rorZp | rorZpX | rorAbs | rorAbsX => exact .of_rule (shiftMem_local ror8) rfl
  | incZp | incZpX | incAbs | incAbsX => exact .of_rule (modifyMem_local inc8) rfl
  | decZp | decZpX | decAbs | decAbsX => exact .of_rule (modifyMem_local dec8) rfl
  | aslAcc => exact shiftA_local asl8
  | lsrAcc => exact shiftA_local lsr8
  | rolAcc => exact shiftA_local rol8
  | rorAcc => exact shiftA_local ror8
  | tax => exact transfer_local .a .x
  | tay => exact transfer_local .a .y
  | tsx => exact transfer_local .sp .x
  | txa => exact transfer_local .x .a
  | tya => exact transfer_local .y .a
  | inx => exact modifyReg_local inc8 .x
  | iny => exact modifyReg_local inc8 .y
  | dex => exact modifyReg_local dec8 .x
  | dey => exact modifyReg_local dec8 .y
  | pha | php => exact fun s => ⟨_, rfl, s.push8_pc _, fun b => congrArg _ (s.push8_withCompare b _)⟩
  | pla => exact fun s => ⟨_, rfl, s.pop8_pc, fun b => congrArg _ (pullA_withCompare s b)⟩
  | plp => exact fun s => ⟨_, rfl, s.pop8_pc, fun b => congrArg _ (pulledStatus_withCompare s b)⟩
  | txs | clc | sec | cli | sei | cld | sed | clv | brk | nop => exact fun s => ⟨_, rfl, rfl, fun _ => rfl⟩
  | jmpAbs | jmpInd | jsr | rts | rti | bcc | bcs | beq | bne | bmi | bpl | bvc | bvs => cases hi

theorem exec_pc {i : Instr} {s t : State} (h : exec i s = .next t) (hi : i.mnemonic ∉ controlTransfers) :
    t.pc = s.pc := by
  obtain ⟨u, hu, hpc, -⟩ := exec_local i (i.isControlTransfer_eq_false_iff.mpr hi) s
  cases h.symm.trans hu
  exact hpc

/-- Every instruction does the same under either value of PC_COMPARE_ADVANCE (R106, R107). -/
theorem exec_next_withCompare (i : Instr) (s : State) (b : Bool) :
    ∃ t, exec i s = .next t ∧ exec i (s.withCompare b) = .next (t.withCompare b) := by
  cases hi : i.isControlTransfer with
  | true =>
    cases i with
    | jsr w => exact ⟨_, rfl, congrArg _ (callSubroutine_withCompare w s b)⟩
    | rts => exact ⟨_, rfl, congrArg _ (returnFromSubroutine_withCompare s b)⟩
    | rti => exact ⟨_, rfl, congrArg _ (returnFromInterrupt_withCompare s b)⟩
    | jmpAbs | jmpInd | bcc | bcs | beq | bne | bmi | bpl | bvc | bvs => exact ⟨_, rfl, rfl⟩
    | _ => cases hi
  | false =>
    obtain ⟨t, ht, -, hb⟩ := exec_local i hi s
    exact ⟨t, ht, hb b⟩

theorem exec_withCompare {i : Instr} {s t : State} (h : exec i s = .next t) (b : Bool) :
    exec i (s.withCompare b) = .next (t.withCompare b) := by
  obtain ⟨u, hu, hb⟩ := exec_next_withCompare i s b
  cases h.symm.trans hu
  exact hb

/-- The literal comparison against the default: they differ where a control transfer's rule wrote `pcb`, because any
other rule that completes leaves `pcb` in PC (R107). -/
theorem advance_eq_default {i : Instr} {pcb : Addr} {u : State} (hcompare : u.cfg.pcCompareAdvance = true)
    (hrun : i.mnemonic ∈ controlTransfers → u.run = .running) (hpc : i.mnemonic ∉ controlTransfers → u.pc = pcb) :
    advance i pcb u = { advance i pcb (u.withCompare false) with
      cfg := u.cfg
      pc := if i.mnemonic ∈ controlTransfers ∧ (advance i pcb (u.withCompare false)).pc = pcb then nextAddr i pcb
        else (advance i pcb (u.withCompare false)).pc } := by
  by_cases hi : i.mnemonic ∈ controlTransfers
  · have hdefault : advance i pcb (u.withCompare false) = u.withCompare false :=
      advance_of_controlTransfer (i.isControlTransfer_iff.mpr hi) (.inl rfl)
    rw [hdefault, advance_of_compare (hrun hi) hcompare]
    by_cases hpcb : u.pc = pcb
    · rw [if_pos hpcb, if_pos ⟨hi, hpcb⟩]
      rfl
    · rw [if_neg hpcb, if_neg fun h => hpcb h.2]
      rfl
  · rw [if_neg fun h => hi h.1]
    cases hr : u.run with
    | halted c =>
      have hdefault : advance i pcb (u.withCompare false) = u.withCompare false := advance_of_halted hr
      rw [hdefault, advance_of_halted hr]
      rfl
    | running =>
      have hdefault := advance_of_default (i := i) (pcb := pcb) (t := u.withCompare false) hr rfl
      rw [hdefault, if_neg hi, advance_of_compare hr hcompare, if_pos (hpc hi)]
      rfl

end Sys2Proof.Machine
end

section
/-! SUPPORT. The loop under fuel (40_fetch_decode.md R109). -/

namespace Sys2Proof.Machine

open Sys2Proof Sys2Proof.Claims

/-- The causes of a halt that a step can make (R109). -/
def EndsRun (c : HaltCause) : Prop := c = .brk ∨ ∃ b a, c = .unimplementedOpcode b a ∧ b ∈ illegalBytes

theorem step_endsRun {s t : State} {c : HaltCause} (h : step s = .next t) (hc : t.run = .halted c) : EndsRun c := by
  obtain hr | ⟨hr, -⟩ | ⟨hr, hop⟩ := step_run h <;> cases hr.symm.trans hc
  · exact .inl rfl
  · exact .inr ⟨_, _, rfl, hop⟩

theorem runLoop_of_halted {s : State} {c : HaltCause} (hr : s.run = .halted c) (n : Nat) :
    runLoop n s = .finished c s := by
  unfold runLoop
  simp only [hr]

theorem runLoop_zero_of_running {s : State} (hr : s.run = .running) : runLoop 0 s = .notFinished s := by
  simp only [runLoop, hr]

theorem runLoop_succ_of_step {s t : State} (h : step s = .next t) (n : Nat) : runLoop (n + 1) s = runLoop n t := by
  obtain ⟨hr, -⟩ := step_cases h
  simp only [runLoop, hr, h]

/-- A run that ends with fuel `n` ends the same with more, and one that does not is still running. -/
theorem runLoop_ends (n : Nat) {s : State} (hs : ∀ c, s.run = .halted c → EndsRun c) :
    (∃ c t, runLoop n s = .finished c t ∧ t.run = .halted c ∧ EndsRun c ∧
      ∀ m, runLoop (n + m) s = .finished c t) ∨
    (∃ t, runLoop n s = .notFinished t ∧ t.run = .running) := by
  induction n generalizing s with
  | zero =>
    cases hr : s.run with
    | halted c => exact .inl ⟨c, s, runLoop_of_halted hr 0, hr, hs c hr, fun m => runLoop_of_halted hr (0 + m)⟩
    | running => exact .inr ⟨s, runLoop_zero_of_running hr, hr⟩
  | succ n ih =>
    cases hr : s.run with
    | halted c =>
      exact .inl ⟨c, s, runLoop_of_halted hr _, hr, hs c hr, fun m => runLoop_of_halted hr (n + 1 + m)⟩
    | running =>
      obtain ⟨t, ht⟩ := step_next_of_running hr
      simp only [Nat.add_right_comm n 1, runLoop_succ_of_step ht]
      exact ih fun c => step_endsRun ht

end Sys2Proof.Machine
end

section
/-! The statements about fetch, decode and the advance (40_fetch_decode.md). -/

namespace Sys2Proof.Proofs

open Sys2Proof Sys2Proof.Machine Sys2Proof.Claims

/-- Settles O48: every running state steps, and `step_run` names the halts. -/
theorem runningStepsOrHaltsByName : Obligations.RunningStepsOrHaltsByName := by
  intro s hr
  obtain ⟨t, ht⟩ := step_next_of_running hr
  exact ⟨t, ht, step_cfg ht, step_run ht⟩

/-- Settles O47: `step` looks at Run first. -/
theorem haltedTakesNoStep : Obligations.HaltedTakesNoStep :=
  fun _ _ => step_of_halted

/-- Settles O42: the parameters that the advance reads are those before the step. -/
theorem stepRunsTheDecodedInstruction : Obligations.StepRunsTheDecodedInstruction := by
  intro s i rest hr hd
  obtain ⟨t, ht⟩ := exec_next i s.fetched
  have hcfg : t.cfg = s.cfg := exec_fetched_cfg ht
  refine ⟨t, ht, ?_⟩
  rw [step_of_decode hr hd ht, advance_eq_ite, nextAddr_eq_ofNat, ← hcfg]
  rfl

/-- Settles O43: the advance of R106 after the instruction's rule. -/
theorem defaultAdvance : Obligations.DefaultAdvance := by
  intro s t i rest hr hcompare hd hstep hrun
  obtain ⟨u, hu, rfl⟩ := exec_of_step hr hd hstep
  rw [advance_run] at hrun
  have hcfg : u.cfg = s.cfg := exec_fetched_cfg hu
  rw [advance_of_default hrun (hcfg ▸ hcompare)]
  constructor <;> intro hi
  · rw [if_neg hi, State.setPC_pc, nextAddr_succ_eq_ofNat, BitVec.toNat_ofNat]
  · rw [if_pos hi]
    exact hu

/-- Settles O44: the rule does the same under either value, and `advance_eq_default` compares the advances. -/
theorem compareAdvanceDiffersOnlyAtPcb : Obligations.CompareAdvanceDiffersOnlyAtPcb := by
  intro s t i rest hr hcompare hd hstep
  refine ⟨?_, length_encode_of_return⟩
  obtain ⟨u, hu⟩ := exec_next i s.fetched
  obtain ⟨v, hv, rfl⟩ := exec_of_step (s := s.withCompare false) hr hd hstep
  cases hv.symm.trans (exec_withCompare hu false)
  have hcfg : u.cfg = s.cfg := exec_fetched_cfg hu
  have hrun : i.mnemonic ∈ controlTransfers → u.run = .running := fun hi =>
    (exec_run_of_controlTransfer hu hi).trans hr
  rw [step_of_decode hr hd hu, advance_eq_default (pcb := s.pc + 1) (hcfg ▸ hcompare) hrun (exec_pc hu),
    nextAddr_succ_eq_ofNat, hcfg]
  rfl

/-- Settles O45: every instruction completes, and the rules that are no control transfer's are local. -/
theorem onlyControlTransfersWritePC : Obligations.OnlyControlTransfersWritePC := by
  intro i s
  obtain ⟨t, ht⟩ := exec_next i s
  exact ⟨t, ht, exec_pc ht⟩

/-- Settles O46: an unlisted byte has no instruction, and the halt on it is all that the step does after the fetch. -/
theorem unknownOpcodeHalts : Obligations.UnknownOpcodeHalts :=
  fun _ hr hop => ⟨step_of_unimplemented hr ((shapeOf_eq_none_iff _).mpr hop), rfl⟩

/-- Settles O56: the loop from a running state. -/
theorem runEndsExactlyAtAHalt : Obligations.RunEndsExactlyAtAHalt :=
  fun n _ => runLoop_ends n nofun

end Sys2Proof.Proofs
end

section
/-! SUPPORT. An instruction from its bytes to its effect (30_encoding.md R80, 20_memory.md R61 to R69): the address of
each operand form as a number, and a rule that works on an operand in memory brought to every form of its opcodes. -/

namespace Sys2Proof.Machine

open Sys2Proof Sys2Proof.Claims

variable {s : State}

/-! ### The three formats -/

theorem runs_f1 {op : Byte} {i : Instr} {Q : State → Prop} (hop : shapeOf op = some (.f1 i))
    (h : ∃ t, exec i s = .next t ∧ Q t) : Runs [op] i s Q :=
  ⟨decode_f1 hop [], h⟩

theorem runs_f2 {op : Byte} {make : Byte → Instr} {Q : State → Prop} (hop : shapeOf op = some (.f2 make)) (b : Byte)
    (h : ∃ t, exec (make b) s = .next t ∧ Q t) : Runs [op, b] (make b) s Q :=
  ⟨decode_f2 hop b [], h⟩

theorem runs_f3 {op : Byte} {make : Addr → Instr} {Q : State → Prop} (hop : shapeOf op = some (.f3 make)) (w : Addr)
    (h : ∃ t, exec (make w) s = .next t ∧ Q t) : Runs [op, lo w, hi w] (make w) s Q := by
  refine ⟨?_, h⟩
  rw [← loByte_eq_lo, ← hiByte_eq_hi, decode_f3 hop, word_hiByte_loByte]

/-! ### Operands in memory -/

/-- The operand `o` is the byte of memory at the number `n`. -/
structure StandsAt (s : State) (o : Operand) (n : Nat) : Prop where
  ea_eq : s.ea o = some (BitVec.ofNat 16 n)
  operandByte_eq : s.operandByte o = some (rd s n)

/-- A form whose operand byte is read at its effective address. -/
theorem standsAt_of_toNat {o : Operand} {a : Addr} {n : Nat} (hea : s.ea o = some a)
    (hbyte : s.operandByte o = (s.ea o).map s.mem.read) (ha : a.toNat = n) : StandsAt s o n := by
  have hn : s.ea o = some (BitVec.ofNat 16 n) := eq_some_ofNat hea ha
  refine ⟨hn, ?_⟩
  rw [hbyte, hn]
  rfl

theorem standsAt_zeroPage (z : Byte) : StandsAt s (.zeroPage z) z.toNat :=
  standsAt_of_toNat rfl rfl (zext16_toNat z)

theorem standsAt_zeroPageX (z : Byte) : StandsAt s (.zeroPageX z) ((z.toNat + s.x.toNat) % 256) :=
  standsAt_of_toNat rfl rfl (zext16_add_toNat z s.x)

theorem standsAt_zeroPageY (z : Byte) : StandsAt s (.zeroPageY z) ((z.toNat + s.y.toNat) % 256) :=
  standsAt_of_toNat rfl rfl (zext16_add_toNat z s.y)

theorem standsAt_absolute (w : Addr) : StandsAt s (.absolute w) w.toNat :=
  standsAt_of_toNat rfl rfl rfl

theorem standsAt_absoluteX (w : Addr) : StandsAt s (.absoluteX w) ((w.toNat + s.x.toNat) % 65536) :=
  standsAt_of_toNat rfl rfl (add_zext16_toNat w s.x)

theorem standsAt_absoluteY (w : Addr) : StandsAt s (.absoluteY w) ((w.toNat + s.y.toNat) % 65536) :=
  standsAt_of_toNat rfl rfl (add_zext16_toNat w s.y)

theorem standsAt_indirectX (z : Byte) : StandsAt s (.indirectX z) (zpWord s ((z.toNat + s.x.toNat) % 256)) :=
  standsAt_of_toNat rfl rfl (by rw [zpRead16_toNat_eq_zpWord, BitVec.toNat_add])

theorem standsAt_indirectY (z : Byte) : StandsAt s (.indirectY z) ((zpWord s z.toNat + s.y.toNat) % 65536) :=
  standsAt_of_toNat rfl rfl (by rw [add_zext16_toNat, zpRead16_toNat_eq_zpWord])

/-! ### A rule at every form of its opcodes -/

/-- `rule` completes with the effect `Q n` for every instruction whose operand stands at `n`. -/
def CompletesAt (rule : Instr → State → Result) (s : State) (Q : Nat → State → Prop) : Prop :=
  ∀ (i : Instr) (n : Nat), StandsAt s i.operand n → ∃ t, rule i s = .next t ∧ Q n t

/-- `rule` completes with the effect `Q m` for every instruction whose operand byte is `m`. -/
def CompletesOn (rule : Instr → State → Result) (s : State) (Q : Byte → State → Prop) : Prop :=
  ∀ (i : Instr) (m : Byte), s.operandByte i.operand = some m → ∃ t, rule i s = .next t ∧ Q m t

theorem CompletesOn.inMemory {rule : Instr → State → Result} {Q : Byte → State → Prop} (h : CompletesOn rule s Q) :
    CompletesAt rule s fun n => Q (rd s n) :=
  fun i _ hn => h i _ hn.operandByte_eq

/-- The opcode byte stands, in its format, for the instructions `make`, whose operand has this form and whose rule is
`rule` (R84, R103). -/
structure OpcodeForm {α : Type} (format : (α → Instr) → Shape) (rule : Instr → State → Result) (form : α → Operand)
    (op : Byte) (make : α → Instr) : Prop where
  shape : shapeOf op = some (format make)
  operand_eq : Instr.operand ∘ make = form
  exec_eq : exec ∘ make = rule ∘ make

section

variable {rule : Instr → State → Result} {Q : Nat → State → Prop} {op : Byte}

section

variable {α : Type} {format : (α → Instr) → Shape} {form : α → Operand} {make : α → Instr}

theorem OpcodeForm.operand_apply (hf : OpcodeForm format rule form op make) (b : α) : (make b).operand = form b :=
  congrFun hf.operand_eq b

theorem OpcodeForm.exec_apply (hf : OpcodeForm format rule form op make) (b : α) : exec (make b) = rule (make b) :=
  congrFun hf.exec_eq b

theorem CompletesAt.exec_form {b : α} {n : Nat} (h : CompletesAt rule s Q)
    (hf : OpcodeForm format rule form op make) (hn : StandsAt s (form b) n) :
    ∃ t, exec (make b) s = .next t ∧ Q n t := by
  rw [← hf.operand_apply] at hn
  rw [hf.exec_apply]
  exact h (make b) n hn

end

section

variable {make : Byte → Instr}

/-- An immediate operand is the byte of the instruction (R61). -/
theorem CompletesOn.immForm {Q : Byte → State → Prop} (h : CompletesOn rule s Q)
    (hf : OpcodeForm .f2 rule .immediate op make) (v : Byte) : Runs [op, v] (make v) s (Q v) := by
  have hv : s.operandByte (make v).operand = some v := by
    rw [hf.operand_apply]
    rfl
  refine runs_f2 hf.shape v ?_
  rw [hf.exec_apply]
  exact h (make v) v hv

theorem CompletesAt.zpForm (h : CompletesAt rule s Q) (hf : OpcodeForm .f2 rule .zeroPage op make) :
    zpForm op make fun i bytes n => Runs bytes i s (Q n) :=
  fun z => runs_f2 hf.shape z (h.exec_form hf (standsAt_zeroPage z))

theorem CompletesAt.zpXForm (h : CompletesAt rule s Q) (hf : OpcodeForm .f2 rule .zeroPageX op make) :
    zpXForm s op make fun i bytes n => Runs bytes i s (Q n) :=
  fun z => runs_f2 hf.shape z (h.exec_form hf (standsAt_zeroPageX z))

theorem CompletesAt.zpYForm (h : CompletesAt rule s Q) (hf : OpcodeForm .f2 rule .zeroPageY op make) :
    zpYForm s op make fun i bytes n => Runs bytes i s (Q n) :=
  fun z => runs_f2 hf.shape z (h.exec_form hf (standsAt_zeroPageY z))

theorem CompletesAt.indXForm (h : CompletesAt rule s Q) (hf : OpcodeForm .f2 rule .indirectX op make) :
    indXForm s op make fun i bytes n => Runs bytes i s (Q n) :=
  fun z => runs_f2 hf.shape z (h.exec_form hf (standsAt_indirectX z))

theorem CompletesAt.indYForm (h : CompletesAt rule s Q) (hf : OpcodeForm .f2 rule .indirectY op make) :
    indYForm s op make fun i bytes n => Runs bytes i s (Q n) :=
  fun z => runs_f2 hf.shape z (h.exec_form hf (standsAt_indirectY z))

end

section

variable {make : Addr → Instr}

theorem CompletesAt.absForm (h : CompletesAt rule s Q) (hf : OpcodeForm .f3 rule .absolute op make) :
    absForm op make fun i bytes n => Runs bytes i s (Q n) :=
  fun w => runs_f3 hf.shape w (h.exec_form hf (standsAt_absolute w))

theorem CompletesAt.absXForm (h : CompletesAt rule s Q) (hf : OpcodeForm .f3 rule .absoluteX op make) :
    absXForm s op make fun i bytes n => Runs bytes i s (Q n) :=
  fun w => runs_f3 hf.shape w (h.exec_form hf (standsAt_absoluteX w))

theorem CompletesAt.absYForm (h : CompletesAt rule s Q) (hf : OpcodeForm .f3 rule .absoluteY op make) :
    absYForm s op make fun i bytes n => Runs bytes i s (Q n) :=
  fun w => runs_f3 hf.shape w (h.exec_form hf (standsAt_absoluteY w))

end

end

end Sys2Proof.Machine
end

section
/-! SUPPORT. What a load, a store and a transfer do (41_load_store_transfer.md R130 to R141), with Z and N as the
statements read them (42_alu.md R150). -/

namespace Sys2Proof.Machine

open Sys2Proof Sys2Proof.Claims

/-! ### Z and N -/

theorem setZN_zn (s : State) (v : Byte) : ZN (s.setZN v) v := by
  rw [ZN, bit, bit, State.setZN_bit _ _ _ (by decide), State.setZN_bit _ _ _ (by decide)]
  constructor
  · exact beq_iff_eq.trans BitVec.toNat_eq
  · rw [if_pos rfl, getLsbD_seven, decide_eq_true_iff]

/-- SetZN keeps the other six bits, of any state with the same P. -/
theorem setZN_kept {s u : State} (v : Byte) (hp : u.p = s.p) : Kept s (u.setZN v) [bitZ, bitN] := by
  intro k hk hzn
  obtain ⟨hz, hn⟩ : k ≠ 1 ∧ k ≠ 7 := by simpa only [List.mem_cons, List.not_mem_nil, or_false, not_or] using hzn
  rw [bit, bit, State.setZN_bit _ _ _ hk, if_neg hn, if_neg hz, hp]

/-! ### Loads, stores and transfers -/

/-- From `s` to `t` the register `r` becomes `v`, Z and N are those of `v`, and nothing else changes. -/
def Receives (r : Reg) (v : Byte) (s t : State) : Prop :=
  t = { s.set r v with p := t.p } ∧ ZN t v ∧ Kept s t [bitZ, bitN]

theorem receives_set_setZN (r : Reg) (v : Byte) (s : State) : Receives r v s ((s.set r v).setZN v) :=
  ⟨rfl, setZN_zn _ v, setZN_kept v (s.set_status r v)⟩

theorem load_completesOn (r : Reg) (s : State) : CompletesOn (load r) s fun m => Receives r m s :=
  fun _ m hm => ⟨_, load_of_operand r hm, receives_set_setZN r m s⟩

theorem transfer_completes (src dst : Reg) (s : State) :
    ∃ t, transfer src dst s = .next t ∧ Receives dst (s.get src) s t :=
  ⟨_, rfl, receives_set_setZN dst (s.get src) s⟩

theorem store_completesAt (r : Reg) (s : State) :
    CompletesAt (store r) s fun n t => t = { s with mem := t.mem } ∧ Stored s t n (s.get r) :=
  fun _ _ h => ⟨_, store_of_ea r h.ea_eq, rfl, fun a => s.mem.read_write _ a _⟩

end Sys2Proof.Machine
end

section
/-! The statements about loads, stores and transfers (41_load_store_transfer.md). The three equations
of a form are its entries in the opcode map, in the operands and in the dispatch. -/

namespace Sys2Proof.Proofs

open Sys2Proof Sys2Proof.Machine Sys2Proof.Claims

/-- Settles O1: the load into A, from the byte of the instruction or from the address of its form. -/
theorem ldaLoadsItsOperand : Obligations.LdaLoadsItsOperand := by
  intro s
  have hbyte := load_completesOn .a s
  have hmem := hbyte.inMemory
  exact ⟨hbyte.immForm ⟨rfl, rfl, rfl⟩, hmem.zpForm ⟨rfl, rfl, rfl⟩, hmem.zpXForm ⟨rfl, rfl, rfl⟩,
    hmem.absForm ⟨rfl, rfl, rfl⟩, hmem.absXForm ⟨rfl, rfl, rfl⟩, hmem.absYForm ⟨rfl, rfl, rfl⟩,
    hmem.indXForm ⟨rfl, rfl, rfl⟩, hmem.indYForm ⟨rfl, rfl, rfl⟩⟩

/-- Settles O2: the loads into X and Y, the indexed forms of each by the other index register. -/
theorem ldxAndLdyLoadTheirOperand : Obligations.LdxAndLdyLoadTheirOperand := by
  intro s
  have hbyteX := load_completesOn .x s
  have hmemX := hbyteX.inMemory
  have hbyteY := load_completesOn .y s
  have hmemY := hbyteY.inMemory
  exact ⟨hbyteX.immForm ⟨rfl, rfl, rfl⟩, hmemX.zpForm ⟨rfl, rfl, rfl⟩, hmemX.zpYForm ⟨rfl, rfl, rfl⟩,
    hmemX.absForm ⟨rfl, rfl, rfl⟩, hmemX.absYForm ⟨rfl, rfl, rfl⟩, hbyteY.immForm ⟨rfl, rfl, rfl⟩,
    hmemY.zpForm ⟨rfl, rfl, rfl⟩, hmemY.zpXForm ⟨rfl, rfl, rfl⟩, hmemY.absForm ⟨rfl, rfl, rfl⟩,
    hmemY.absXForm ⟨rfl, rfl, rfl⟩⟩

/-- Settles O3: the store of A at the address of each form. -/
theorem staStoresA : Obligations.StaStoresA := by
  intro s
  have hstore := store_completesAt .a s
  exact ⟨hstore.zpForm ⟨rfl, rfl, rfl⟩, hstore.zpXForm ⟨rfl, rfl, rfl⟩, hstore.absForm ⟨rfl, rfl, rfl⟩,
    hstore.absXForm ⟨rfl, rfl, rfl⟩, hstore.absYForm ⟨rfl, rfl, rfl⟩, hstore.indXForm ⟨rfl, rfl, rfl⟩,
    hstore.indYForm ⟨rfl, rfl, rfl⟩⟩

/-- Settles O4: the stores of X and Y, the indexed form of each by the other index register. -/
theorem stxAndStyStoreTheirRegister : Obligations.StxAndStyStoreTheirRegister := by
  intro s
  have hstoreX := store_completesAt .x s
  have hstoreY := store_completesAt .y s
  exact ⟨hstoreX.zpForm ⟨rfl, rfl, rfl⟩, hstoreX.zpYForm ⟨rfl, rfl, rfl⟩, hstoreX.absForm ⟨rfl, rfl, rfl⟩,
    hstoreY.zpForm ⟨rfl, rfl, rfl⟩, hstoreY.zpXForm ⟨rfl, rfl, rfl⟩, hstoreY.absForm ⟨rfl, rfl, rfl⟩⟩

/-- Settles O5: five transfers are one rule on two registers, and TXS writes SP alone. -/
theorem transfersCopyARegister : Obligations.TransfersCopyARegister := fun s =>
  ⟨runs_f1 rfl (transfer_completes .a .x s), runs_f1 rfl (transfer_completes .a .y s),
    runs_f1 rfl (transfer_completes .x .a s), runs_f1 rfl (transfer_completes .y .a s),
    runs_f1 rfl (transfer_completes .sp .x s), runs_f1 rfl ⟨_, rfl, rfl⟩⟩

end Sys2Proof.Proofs
end

section
/-! SUPPORT. An operation on the operand byte brought to a mnemonic that has all eight operand forms, and bits and
complement of a byte as numbers. -/

namespace Sys2Proof.Machine

open Sys2Proof Sys2Proof.Claims

variable {s : State}

/-! ### A rule on the operand byte -/

theorem CompletesOn.of_withOperand {f : State → Byte → State} {Q : Byte → State → Prop} (h : ∀ m, Q m (f s m)) :
    CompletesOn (fun i s => withOperand i s (f s)) s Q :=
  fun _ m hm => ⟨f s m, by simp only [withOperand, hm], h m⟩

section

variable {rule : Instr → State → Result} {Q : Byte → State → Prop}
  {opImm opZp opZpX opAbs opAbsX opAbsY opIndX opIndY : Byte}
  {imm zp zpX indX indY : Byte → Instr} {abs absX absY : Addr → Instr}

/-- The eight operand forms of ADC, SBC, AND, ORA, EOR and CMP. The three equations of a form, its entries in the
opcode map, in the operands and in the dispatch, hold by evaluation once its opcode byte is known. -/
theorem CompletesOn.eightForms (h : CompletesOn rule s Q)
    (himm : OpcodeForm .f2 rule .immediate opImm imm := by exact ⟨rfl, rfl, rfl⟩)
    (hzp : OpcodeForm .f2 rule .zeroPage opZp zp := by exact ⟨rfl, rfl, rfl⟩)
    (hzpX : OpcodeForm .f2 rule .zeroPageX opZpX zpX := by exact ⟨rfl, rfl, rfl⟩)
    (habs : OpcodeForm .f3 rule .absolute opAbs abs := by exact ⟨rfl, rfl, rfl⟩)
    (habsX : OpcodeForm .f3 rule .absoluteX opAbsX absX := by exact ⟨rfl, rfl, rfl⟩)
    (habsY : OpcodeForm .f3 rule .absoluteY opAbsY absY := by exact ⟨rfl, rfl, rfl⟩)
    (hindX : OpcodeForm .f2 rule .indirectX opIndX indX := by exact ⟨rfl, rfl, rfl⟩)
    (hindY : OpcodeForm .f2 rule .indirectY opIndY indY := by exact ⟨rfl, rfl, rfl⟩) :
    let effect := fun (i : Instr) (bytes : List Byte) (m : Byte) => Runs bytes i s (Q m)
    (∀ v : Byte, effect (imm v) [opImm, v] v) ∧
    zpForm opZp zp (ofByte s effect) ∧ zpXForm s opZpX zpX (ofByte s effect) ∧
    absForm opAbs abs (ofByte s effect) ∧ absXForm s opAbsX absX (ofByte s effect) ∧
    absYForm s opAbsY absY (ofByte s effect) ∧ indXForm s opIndX indX (ofByte s effect) ∧
    indYForm s opIndY indY (ofByte s effect) :=
  have hmem := h.inMemory
  ⟨h.immForm himm, hmem.zpForm hzp, hmem.zpXForm hzpX, hmem.absForm habs, hmem.absXForm habsX, hmem.absYForm habsY,
    hmem.indXForm hindX, hmem.indYForm hindY⟩

end

/-! ### Bits of a byte as numbers -/

/-- Bit 6 is the higher half of what lies below the sign bit. -/
theorem getLsbD_six (v : Byte) : v.getLsbD 6 = decide (64 ≤ v.toNat % 128) := by
  rw [BitVec.getLsbD, Nat.testBit_eq_decide_div_mod_eq]
  simp only [decide_eq_decide]
  omega

/-- The one's complement, as the spec writes it for SBC (R153). -/
theorem compl_toNat (m : Byte) : (~~~m).toNat = 255 - m.toNat := BitVec.toNat_not

/-- On signed numbers the one's complement is `-1 - m`. -/
theorem compl_toInt (m : Byte) : (~~~m).toInt = -1 - m.toInt := by
  have hlt := m.isLt
  rw [BitVec.toInt_eq_toNat_cond, BitVec.toInt_eq_toNat_cond, compl_toNat]
  split <;> split <;> omega

end Sys2Proof.Machine
end

section
/-! SUPPORT. The bits of P that a chain of flag writes keeps (10_state.md R10, R27). -/

namespace Sys2Proof.Claims

open Sys2Proof Sys2Proof.Machine

variable {s u : State} {written : List Nat}

theorem Kept.of_p_eq (h : u.p = s.p) : Kept s u written :=
  fun k _ _ => congrArg (BitVec.getLsbD · k) h

theorem Kept.setFlag (h : Kept s u written) {f : Flag} (hf : f.bit ∈ written) (b : Bool) :
    Kept s (u.setFlag f b) written := by
  intro k hk hw
  have hne : k ≠ f.bit := fun e => hw (e ▸ hf)
  exact ((u.setFlag_bit f b k hk).trans (if_neg hne)).trans (h k hk hw)

theorem Kept.setZN (h : Kept s u written) (hz : bitZ ∈ written) (hn : bitN ∈ written) (v : Byte) :
    Kept s (u.setZN v) written :=
  (h.setFlag (f := .z) hz _).setFlag (f := .n) hn _

end Sys2Proof.Claims
end

section
/-! SUPPORT. What addition, logic, compare and bit test do (42_alu.md R151 to R169), with C and V as the statements
read them. -/

namespace Sys2Proof.Machine

open Sys2Proof Sys2Proof.Claims

/-! ### Addition into A -/

theorem carryIn_eq (s : State) : carryIn s = (s.flag .c).toNat :=
  (Bool.cond_eq_ite _ _ _).symm

theorem add8_carry_iff (a b : Byte) (c : Bool) :
    (add8 a b c).carry = true ↔ 255 < a.toNat + b.toNat + c.toNat := decide_eq_true_iff

theorem add8_overflow_iff (a b : Byte) (c : Bool) :
    let sum := a.toNat + b.toNat + c.toNat
    (add8 a b c).overflow = true ↔ (a.toNat ^^^ sum) &&& (b.toNat ^^^ sum) &&& 0x80 ≠ 0 := bne_iff_ne

/-- The effect of an addition of the number `m` into A (R151, R160). -/
def AddedToA (s : State) (m : Nat) (t : State) : Prop :=
  let sum := s.a.toNat + m + carryIn s
  t = { s with a := t.a, p := t.p } ∧ t.a.toNat = sum % 256 ∧ (bit t bitC = true ↔ 255 < sum) ∧
    (bit t bitV = true ↔ (s.a.toNat ^^^ sum) &&& (m ^^^ sum) &&& 0x80 ≠ 0) ∧ ZN t t.a ∧
    Kept s t [bitC, bitV, bitZ, bitN]

theorem addToA_addedToA (m : Byte) (s : State) : AddedToA s m.toNat (addToA m s) := by
  have hC : bit (addToA m s) bitC = (add8 s.a m (s.flag .c)).carry := addToA_bit m s 0 (by decide)
  have hV : bit (addToA m s) bitV = (add8 s.a m (s.flag .c)).overflow := addToA_bit m s 6 (by decide)
  have hbase : Kept s (s.set .a (add8 s.a m (s.flag .c)).result) [bitC, bitV, bitZ, bitN] := .of_p_eq rfl
  rw [AddedToA, carryIn_eq, hC, hV]
  exact ⟨addToA_frame m s, add8_result_toNat _ _ _, add8_carry_iff _ _ _, add8_overflow_iff _ _ _, setZN_zn _ _,
    ((hbase.setFlag (f := .c) (by decide) _).setFlag (f := .v) (by decide) _).setZN (by decide) (by decide) _⟩

theorem addWithCarry_completesOn (s : State) : CompletesOn addWithCarry s fun m => AddedToA s m.toNat :=
  .of_withOperand fun m => addToA_addedToA m s

theorem subWithBorrow_completesOn (s : State) : CompletesOn subWithBorrow s fun m => AddedToA s (255 - m.toNat) :=
  .of_withOperand fun m => compl_toNat m ▸ addToA_addedToA (~~~m) s

theorem and_0x80_ne_zero_iff (n : Nat) : n &&& 0x80 ≠ 0 ↔ n.testBit 7 = true := by
  rw [show 0x80 = 2 ^ 7 from rfl, Nat.and_two_pow]
  cases n.testBit 7 <;> decide

/-- Add8's test: bit 7 of the sum differs from bit 7 of both bytes. -/
theorem overflow_iff_testBit (a b sum : Nat) :
    (a ^^^ sum) &&& (b ^^^ sum) &&& 0x80 ≠ 0 ↔ a.testBit 7 ≠ sum.testBit 7 ∧ b.testBit 7 ≠ sum.testBit 7 := by
  rw [and_0x80_ne_zero_iff, Nat.testBit_and, Nat.testBit_xor, Nat.testBit_xor, Bool.and_eq_true, bne_iff_ne, bne_iff_ne]

/-- Add8's test says that the signed sum is out of range: the bytes have the same sign, and the sum has not. -/
theorem overflow_iff_signed (a b : Byte) {c : Nat} (hc : c ≤ 1) :
    let sum := a.toNat + b.toNat + c
    (a.toNat ^^^ sum) &&& (b.toNat ^^^ sum) &&& 0x80 ≠ 0 ↔
      a.toInt + b.toInt + c < -128 ∨ 127 < a.toInt + b.toInt + c := by
  intro sum
  have ha := a.isLt
  have hb := b.isLt
  rw [overflow_iff_testBit, BitVec.toInt_eq_toNat_cond, BitVec.toInt_eq_toNat_cond]
  simp only [Nat.testBit_eq_decide_div_mod_eq, ne_eq, decide_eq_decide]
  split <;> split <;> omega

/-! ### Logic, compare and bit test -/

theorem logic_completesOn (op : Byte → Byte → Byte) (s : State) :
    CompletesOn (logic op) s fun m => Receives .a (op s.a m) s :=
  .of_withOperand fun m => receives_set_setZN .a (op s.a m) s

/-- The effect of a compare of the register value `v` with the byte `m` (R155). -/
def Compared (s : State) (v m : Byte) (t : State) : Prop :=
  t = { s with p := t.p } ∧ (bit t bitC = true ↔ m.toNat ≤ v.toNat) ∧
    ZN t (BitVec.ofNat 8 (v.toNat + 256 - m.toNat)) ∧ Kept s t [bitC, bitZ, bitN]

/-- A difference modulo 256 as R155 writes it. -/
theorem sub_eq_ofNat (v m : Byte) : v - m = BitVec.ofNat 8 (v.toNat + 256 - m.toNat) := by
  have hm := m.isLt
  rw [BitVec.sub_def]
  congr 1
  omega

theorem compare_compared (s : State) (v m : Byte) : Compared s v m (s.compare v m) := by
  have hC : bit (s.compare v m) bitC = decide (m.toNat ≤ v.toNat) := s.compare_bit v m 0 (by decide)
  have hbase : Kept s s [bitC, bitZ, bitN] := .of_p_eq rfl
  rw [Compared, ← sub_eq_ofNat, hC]
  exact ⟨rfl, decide_eq_true_iff, setZN_zn _ _,
    (hbase.setFlag (f := .c) (by decide) _).setZN (by decide) (by decide) _⟩

theorem compareReg_completesOn (r : Reg) (s : State) : CompletesOn (compareReg r) s fun m => Compared s (s.get r) m :=
  .of_withOperand fun m => compare_compared s (s.get r) m

/-- The effect of BIT on the byte `m` (R169). -/
def BitTested (s : State) (m : Byte) (t : State) : Prop :=
  t = { s with p := t.p } ∧ (bit t bitZ = true ↔ s.a.toNat &&& m.toNat = 0) ∧
    (bit t bitN = true ↔ 128 ≤ m.toNat) ∧ (bit t bitV = true ↔ 64 ≤ m.toNat % 128) ∧
    Kept s t [bitZ, bitN, bitV]

/-- P after BIT's three flag writes, bit by bit (R169). -/
theorem setFlag_znv_bit (s : State) (z n v : Bool) {k : Nat} (hk : k < 8) :
    bit (((s.setFlag .z z).setFlag .n n).setFlag .v v) k =
      if k = 6 then v else if k = 7 then n else if k = 1 then z else bit s k := by
  rw [bit, State.setFlag_bit _ _ _ _ hk, State.setFlag_bit _ _ _ _ hk, State.setFlag_bit _ _ _ _ hk]
  rfl

theorem bitTest_completesOn (s : State) : CompletesOn bitTest s (BitTested s) := by
  refine .of_withOperand fun m => ⟨rfl, ?_, ?_, ?_, ?_⟩
  · rw [setFlag_znv_bit s _ _ _ (by decide)]
    exact beq_iff_eq.trans BitVec.toNat_eq
  · rw [setFlag_znv_bit s _ _ _ (by decide), getLsbD_seven]
    exact decide_eq_true_iff
  · rw [setFlag_znv_bit s _ _ _ (by decide), getLsbD_six]
    exact decide_eq_true_iff
  · have hbase : Kept s s [bitZ, bitN, bitV] := .of_p_eq rfl
    exact ((hbase.setFlag (f := .z) (by decide) _).setFlag (f := .n) (by decide) _).setFlag (f := .v) (by decide) _

end Sys2Proof.Machine
end

section
/-! The statements about arithmetic, logic, compare and bit test (42_alu.md). -/

namespace Sys2Proof.Proofs

open Sys2Proof Sys2Proof.Machine Sys2Proof.Claims

/-- Settles O6: the addition of the operand byte, at every form. -/
theorem adcAddsWithCarry : Obligations.AdcAddsWithCarry :=
  fun s => (addWithCarry_completesOn s).eightForms

/-- Settles O7: the same addition of the one's complement, at every form. -/
theorem sbcAddsTheComplement : Obligations.SbcAddsTheComplement :=
  fun s => (subWithBorrow_completesOn s).eightForms

/-- Settles O8: both are additions of a byte, SBC's of the one's complement, which is `-1 - M` on signed numbers. -/
theorem overflowAndBorrowAreSigned : Obligations.OverflowAndBorrowAreSigned := by
  intro s m
  have hm := m.isLt
  have hcarry : carryIn s ≤ 1 := (carryIn_eq s).trans_le (Bool.toNat_le _)
  obtain ⟨-, -, -, hVadc, -⟩ := addToA_addedToA m s
  obtain ⟨-, hA, hC, hVsbc, -⟩ := addToA_addedToA (~~~m) s
  refine ⟨⟨addToA m s, rfl, hVadc.trans (overflow_iff_signed _ _ hcarry)⟩, addToA (~~~m) s, rfl, ?_, ?_, ?_⟩
  · rw [hVsbc.trans (overflow_iff_signed _ _ hcarry), compl_toInt]
    omega
  · rw [hA, compl_toNat]
    omega
  · rw [hC, compl_toNat]
    omega

/-- Settles O9: the three operations are one rule, at every form. -/
theorem logicCombinesIntoA : Obligations.LogicCombinesIntoA := fun s =>
  ⟨(logic_completesOn (· &&& ·) s).eightForms, (logic_completesOn (· ||| ·) s).eightForms,
    (logic_completesOn (· ^^^ ·) s).eightForms⟩

/-- Settles O10: the three compares are one rule on a register; CPX and CPY have three forms. -/
theorem comparesSetCarryZeroNegative : Obligations.ComparesSetCarryZeroNegative := by
  intro s
  have hbyteX := compareReg_completesOn .x s
  have hmemX := hbyteX.inMemory
  have hbyteY := compareReg_completesOn .y s
  have hmemY := hbyteY.inMemory
  exact ⟨(compareReg_completesOn .a s).eightForms,
    ⟨hbyteX.immForm ⟨rfl, rfl, rfl⟩, hmemX.zpForm ⟨rfl, rfl, rfl⟩, hmemX.absForm ⟨rfl, rfl, rfl⟩⟩,
    hbyteY.immForm ⟨rfl, rfl, rfl⟩, hmemY.zpForm ⟨rfl, rfl, rfl⟩, hmemY.absForm ⟨rfl, rfl, rfl⟩⟩

/-- Settles O11: both forms read the operand byte from memory. -/
theorem bitTestsTheOperand : Obligations.BitTestsTheOperand := by
  intro s
  have hmem := (bitTest_completesOn s).inMemory
  exact ⟨hmem.zpForm ⟨rfl, rfl, rfl⟩, hmem.absForm ⟨rfl, rfl, rfl⟩⟩

end Sys2Proof.Proofs
end

section
/-! SUPPORT. What a shift, a rotate, an increment and a decrement do (43_shift_incdec.md R180 to R194), with the
four operand forms in memory that they share. -/

namespace Sys2Proof.Machine

open Sys2Proof Sys2Proof.Claims

/-! ### The byte operations as numbers -/

theorem getLsbD_zero_iff (v : Byte) : v.getLsbD 0 = true ↔ v.toNat % 2 = 1 := by
  rw [BitVec.getLsbD, Nat.testBit_zero, decide_eq_true_iff]

theorem getLsbD_seven_iff (v : Byte) : v.getLsbD 7 = true ↔ 128 ≤ v.toNat := by
  rw [getLsbD_seven, decide_eq_true_iff]

theorem shiftLeft_one_toNat (v : Byte) : (v <<< 1).toNat = v.toNat * 2 % 256 := by
  rw [BitVec.toNat_shiftLeft, Nat.shiftLeft_eq]

theorem ushiftRight_one_toNat (v : Byte) : (v >>> 1).toNat = v.toNat / 2 := by
  rw [BitVec.toNat_ushiftRight, Nat.shiftRight_eq_div_pow]

/-- Bytes without a common bit: putting one into the other adds it. -/
theorem or_toNat_of_and_eq_zero {v w : Byte} (h : v &&& w = 0) : (v ||| w).toNat = v.toNat + w.toNat := by
  rw [← BitVec.add_eq_or_of_and_eq_zero v w h, BitVec.toNat_add_of_and_eq_zero h]

/-- A shift to the left vacates bit 0. -/
theorem shiftLeft_one_and_one_eq_zero (v : Byte) : v <<< 1 &&& 0x01 = 0 := by
  ext k hk
  interval_cases k <;> simp

/-- A shift to the right vacates bit 7. -/
theorem ushiftRight_one_and_0x80_eq_zero (v : Byte) : v >>> 1 &&& 0x80 = 0 := by
  ext k hk
  interval_cases k <;> simp

/-- The byte operation `f` gives the number `r v c` and shifts out a bit that is set when `out v`, for the byte `v` and
the carry `c` as numbers. -/
structure ShiftsTo (f : Byte → Bool → Shifted) (r : Nat → Nat → Nat) (out : Nat → Prop) : Prop where
  result_toNat : ∀ v c, (f v c).result.toNat = r v.toNat c.toNat
  carry_iff : ∀ v c, (f v c).carry = true ↔ out v.toNat

theorem asl8_shiftsTo : ShiftsTo asl8 (fun v _ => v * 2 % 256) (128 ≤ ·) where
  result_toNat v _ := shiftLeft_one_toNat v
  carry_iff v _ := getLsbD_seven_iff v

theorem lsr8_shiftsTo : ShiftsTo lsr8 (fun v _ => v / 2) (· % 2 = 1) where
  result_toNat v _ := ushiftRight_one_toNat v
  carry_iff v _ := getLsbD_zero_iff v

theorem rol8_shiftsTo : ShiftsTo rol8 (fun v c => v * 2 % 256 + c) (128 ≤ ·) where
  result_toNat v c := by
    rw [← shiftLeft_one_toNat]
    cases c with
    | false => exact or_toNat_of_and_eq_zero BitVec.and_zero
    | true => exact or_toNat_of_and_eq_zero (shiftLeft_one_and_one_eq_zero v)
  carry_iff v _ := getLsbD_seven_iff v

theorem ror8_shiftsTo : ShiftsTo ror8 (fun v c => v / 2 + 128 * c) (· % 2 = 1) where
  result_toNat v c := by
    rw [← ushiftRight_one_toNat]
    cases c with
    | false => exact or_toNat_of_and_eq_zero BitVec.and_zero
    | true => exact or_toNat_of_and_eq_zero (ushiftRight_one_and_0x80_eq_zero v)
  carry_iff v _ := getLsbD_zero_iff v

/-- The byte operation `f` gives the number `r v` for the byte `v` as a number. -/
def CountsTo (f : Byte → Byte) (r : Nat → Nat) : Prop := ∀ v : Byte, (f v).toNat = r v.toNat

theorem inc8_countsTo : CountsTo inc8 fun v => (v + 1) % 256 := fun v => BitVec.toNat_add v 1

theorem dec8_countsTo : CountsTo dec8 fun v => (v + 255) % 256 := fun v => BitVec.toNat_add v 255

/-! ### Shifts and rotates -/

/-- From `s` to `t` C becomes the bit shifted out, Z and N are those of `v`, and the other five bits of P are kept. -/
def ShiftStatus (s t : State) (v : Byte) (out : Prop) : Prop :=
  (bit t bitC = true ↔ out) ∧ ZN t v ∧ Kept s t [bitC, bitZ, bitN]

/-- The effect of a shift of A to `r` (R185 to R188). -/
def ShiftedA (s : State) (r : Nat) (out : Prop) (t : State) : Prop :=
  t = { s with a := t.a, p := t.p } ∧ t.a.toNat = r ∧ ShiftStatus s t t.a out

/-- The effect of a shift of the byte at `n` to `r` (R185 to R188). -/
def ShiftedMem (s : State) (n r : Nat) (out : Prop) (t : State) : Prop :=
  t = { s with mem := t.mem, p := t.p } ∧ Stored s t n (BitVec.ofNat 8 r) ∧ ShiftStatus s t (BitVec.ofNat 8 r) out

/-- The flag writes of a shift, on any state with the same P. -/
theorem setFlag_setZN_shiftStatus {s u : State} (hp : u.p = s.p) (v : Byte) {c : Bool} {out : Prop}
    (hc : c = true ↔ out) : ShiftStatus s ((u.setFlag .c c).setZN v) v out := by
  have hC : bit ((u.setFlag .c c).setZN v) bitC = c := by
    rw [bit, State.setZN_bit _ _ _ (by decide), State.setFlag_bit _ _ _ _ (by decide)]
    rfl
  have hbase : Kept s u [bitC, bitZ, bitN] := .of_p_eq hp
  exact ⟨by rw [hC, hc], setZN_zn _ v, (hbase.setFlag (f := .c) (by decide) c).setZN (by decide) (by decide) v⟩

section

variable {f : Byte → Bool → Shifted} {r : Nat → Nat → Nat} {out : Nat → Prop}

theorem ShiftsTo.result_eq_ofNat (hf : ShiftsTo f r out) (v : Byte) (c : Bool) :
    (f v c).result = BitVec.ofNat 8 (r v.toNat c.toNat) := by
  rw [← hf.result_toNat, BitVec.ofNat_toNat, BitVec.setWidth_eq]

theorem ShiftsTo.shiftA_completes (hf : ShiftsTo f r out) (s : State) :
    ∃ t, shiftA f s = .next t ∧ ShiftedA s (r s.a.toNat (carryIn s)) (out s.a.toNat) t := by
  rw [carryIn_eq]
  exact ⟨_, rfl, rfl, hf.result_toNat _ _,
    setFlag_setZN_shiftStatus (s.set_status .a _) _ (hf.carry_iff _ _)⟩

theorem ShiftsTo.shiftMem_completesAt (hf : ShiftsTo f r out) (s : State) :
    CompletesAt (shiftMem f) s fun n =>
      ShiftedMem s n (r (rd s n).toNat (carryIn s)) (out (rd s n).toNat) := by
  intro i n hn
  refine ⟨_, shiftMem_of_ea f hn.ea_eq, ?_⟩
  change ShiftedMem s n _ _ _
  rw [ShiftedMem, carryIn_eq, ← hf.result_eq_ofNat]
  exact ⟨rfl, fun a => s.mem.read_write _ a _, setFlag_setZN_shiftStatus (s.store_p _ _) _ (hf.carry_iff _ _)⟩

end

/-! ### Increments and decrements -/

/-- The effect of INC and DEC: the byte at `n` becomes `r` (R189, R190). -/
def ModifiedMem (s : State) (n r : Nat) (t : State) : Prop :=
  t = { s with mem := t.mem, p := t.p } ∧ Stored s t n (BitVec.ofNat 8 r) ∧ ZN t (BitVec.ofNat 8 r) ∧
    Kept s t [bitZ, bitN]

/-- The effect of a count of the register `q` to `r` (R191 to R194). -/
def Counted (q : Reg) (s : State) (r : Nat) (t : State) : Prop :=
  t = { s.set q (t.get q) with p := t.p } ∧ (t.get q).toNat = r ∧ ZN t (t.get q) ∧ Kept s t [bitZ, bitN]

theorem Receives.get_eq {q : Reg} {v : Byte} {s t : State} (h : Receives q v s t) : t.get q = v := by
  rw [h.left]
  cases q <;> rfl

section

variable {f : Byte → Byte} {r : Nat → Nat}

theorem CountsTo.modifyMem_completesAt (hf : CountsTo f r) (s : State) :
    CompletesAt (modifyMem f) s fun n => ModifiedMem s n (r (rd s n).toNat) := by
  intro i n hn
  refine ⟨_, modifyMem_of_ea f hn.ea_eq, ?_⟩
  change ModifiedMem s n _ _
  rw [ModifiedMem, ← hf, BitVec.ofNat_toNat, BitVec.setWidth_eq]
  exact ⟨rfl, fun a => s.mem.read_write _ a _, setZN_zn _ _, setZN_kept _ (s.store_p _ _)⟩

theorem CountsTo.modifyReg_completes (hf : CountsTo f r) (q : Reg) (s : State) :
    ∃ t, modifyReg f q s = .next t ∧ Counted q s (r (s.get q).toNat) t := by
  have h := receives_set_setZN q (f (s.get q)) s
  refine ⟨_, rfl, ?_⟩
  rw [Counted, h.get_eq]
  obtain ⟨hframe, hzn, hkept⟩ := h
  exact ⟨hframe, hf _, hzn, hkept⟩

end

/-! ### The four operand forms in memory -/

/-- The forms of ASL, LSR, ROL, ROR, INC and DEC in memory. The three equations of a form hold by evaluation once its
opcode byte is known, as for `CompletesOn.eightForms`. -/
theorem CompletesAt.fourForms {s : State} {rule : Instr → State → Result} {Q : Nat → State → Prop}
    {opZp opZpX opAbs opAbsX : Byte} {zp zpX : Byte → Instr} {abs absX : Addr → Instr} (h : CompletesAt rule s Q)
    (hzp : OpcodeForm .f2 rule .zeroPage opZp zp := by exact ⟨rfl, rfl, rfl⟩)
    (hzpX : OpcodeForm .f2 rule .zeroPageX opZpX zpX := by exact ⟨rfl, rfl, rfl⟩)
    (habs : OpcodeForm .f3 rule .absolute opAbs abs := by exact ⟨rfl, rfl, rfl⟩)
    (habsX : OpcodeForm .f3 rule .absoluteX opAbsX absX := by exact ⟨rfl, rfl, rfl⟩) :
    let effect := fun (i : Instr) (bytes : List Byte) (n : Nat) => Runs bytes i s (Q n)
    Claims.zpForm opZp zp effect ∧ Claims.zpXForm s opZpX zpX effect ∧ Claims.absForm opAbs abs effect ∧
      Claims.absXForm s opAbsX absX effect :=
  ⟨h.zpForm hzp, h.zpXForm hzpX, h.absForm habs, h.absXForm habsX⟩

end Sys2Proof.Machine
end

section
/-! The statements about shifts, rotates, increments and decrements (43_shift_incdec.md). -/

namespace Sys2Proof.Proofs

open Sys2Proof Sys2Proof.Machine Sys2Proof.Claims

/-- Settles O12: a shift of A, and the same shift of the byte in memory at each form. -/
theorem aslAndLsrShift : Obligations.AslAndLsrShift := fun s =>
  ⟨⟨runs_f1 rfl (asl8_shiftsTo.shiftA_completes s), (asl8_shiftsTo.shiftMem_completesAt s).fourForms⟩,
    runs_f1 rfl (lsr8_shiftsTo.shiftA_completes s), (lsr8_shiftsTo.shiftMem_completesAt s).fourForms⟩

/-- Settles O13: as O12, with the carry added in the vacated bit. -/
theorem rolAndRorRotateThroughCarry : Obligations.RolAndRorRotateThroughCarry := fun s =>
  ⟨⟨runs_f1 rfl (rol8_shiftsTo.shiftA_completes s), (rol8_shiftsTo.shiftMem_completesAt s).fourForms⟩,
    runs_f1 rfl (ror8_shiftsTo.shiftA_completes s), (ror8_shiftsTo.shiftMem_completesAt s).fourForms⟩

/-- Settles O14: one rule on the byte in memory, at each form. -/
theorem incAndDecModifyMemory : Obligations.IncAndDecModifyMemory := fun s =>
  ⟨(inc8_countsTo.modifyMem_completesAt s).fourForms, (dec8_countsTo.modifyMem_completesAt s).fourForms⟩

/-- Settles O15: the same two counts of an index register. -/
theorem indexRegistersCount : Obligations.IndexRegistersCount := fun s =>
  ⟨runs_f1 rfl (inc8_countsTo.modifyReg_completes .x s), runs_f1 rfl (inc8_countsTo.modifyReg_completes .y s),
    runs_f1 rfl (dec8_countsTo.modifyReg_completes .x s), runs_f1 rfl (dec8_countsTo.modifyReg_completes .y s)⟩

end Sys2Proof.Proofs
end

section
/-! SUPPORT. The stack engine in both stack orders, with the pushed and pulled addresses as the statements number them
(44_stack.md R200 to R204), and what the stack instructions do with it (R205 to R208). -/

namespace Sys2Proof.Machine

open Sys2Proof Sys2Proof.Claims

/-! ### Addresses as numbers -/

theorem byte_succ_toNat (v : Byte) : (v + 1).toNat = (v.toNat + 1) % 256 := BitVec.toNat_add v 1

theorem byte_pred_toNat (v : Byte) : (v - 1).toNat = (v.toNat + 255) % 256 := by
  rw [BitVec.toNat_sub, Nat.add_comm]
  rfl

theorem stackAddr_pushOffset_sub (s : State) {k : Nat} (hk : k ≤ 255) :
    stackAddr (s.pushOffset - BitVec.ofNat 8 k) = BitVec.ofNat 16 (pushedAt s k) := by
  refine eq_ofNat_of_toNat_eq ?_
  rw [stackAddr_toNat, State.pushOffset, pushedAt]
  cases s.cfg.stackOrder <;> bv_omega

theorem stackAddr_pullOffset_add (s : State) (k : Nat) :
    stackAddr (s.pullOffset + BitVec.ofNat 8 k) = BitVec.ofNat 16 (pulledAt s k) := by
  refine eq_ofNat_of_toNat_eq ?_
  rw [stackAddr_toNat, State.pullOffset, pulledAt]
  cases s.cfg.stackOrder <;> bv_omega

theorem stackAddr_pushOffset (s : State) : stackAddr s.pushOffset = BitVec.ofNat 16 (pushedAt s 0) := by
  rw [← stackAddr_pushOffset_sub s (Nat.zero_le _), BitVec.sub_zero]

theorem stackAddr_pushOffset_sub_one (s : State) :
    stackAddr (s.pushOffset - 1) = BitVec.ofNat 16 (pushedAt s 1) :=
  stackAddr_pushOffset_sub s (by decide)

/-- A pull reads the byte the statements name. -/
theorem State.pop8_value_eq_rd (s : State) : s.pop8.1 = rd s (pulledAt s 0) := by
  rw [State.pop8_value, rd, ← stackAddr_pullOffset_add, BitVec.add_zero]

/-! ### Two bytes: the second one step further on (R202, R203) -/

theorem State.pushOffset_push8 (s : State) (v : Byte) : (s.push8 v).pushOffset = s.pushOffset - 1 := by
  rw [State.pushOffset, State.pushOffset, State.push8_cfg, State.push8_sp]
  cases s.cfg.stackOrder <;> rfl

theorem State.pullOffset_setSP_succ (s : State) : (s.setSP (s.sp + 1)).pullOffset = s.pullOffset + 1 := by
  rw [State.pullOffset, State.pullOffset, State.setSP_cfg, State.setSP_sp]
  cases s.cfg.stackOrder <;> rfl

theorem State.push16_eq (s : State) (w : Addr) :
    s.push16 w = { s with
      sp := s.sp - 1 - 1
      mem := (s.mem.write (stackAddr s.pushOffset) (hiByte w)).write (stackAddr (s.pushOffset - 1)) (loByte w) } := by
  rw [State.push16, State.push8_eq, State.pushOffset_push8, State.push8_eq]

theorem State.push16_sp (s : State) (w : Addr) : (s.push16 w).sp = s.sp - 1 - 1 := by rw [State.push16_eq]
theorem State.push16_mem (s : State) (w : Addr) : (s.push16 w).mem =
    (s.mem.write (stackAddr s.pushOffset) (hiByte w)).write (stackAddr (s.pushOffset - 1)) (loByte w) := by
  rw [State.push16_eq]

theorem State.pop16_eq (s : State) :
    s.pop16 = (word (s.mem.read (stackAddr (s.pullOffset + 1))) (s.mem.read (stackAddr s.pullOffset)),
      s.setSP (s.sp + 1 + 1)) := by
  simp only [State.pop16, State.pop8_value, State.pop8_state, State.pullOffset_setSP_succ]
  rfl

theorem State.pop8_sp (s : State) : s.pop8.2.sp = s.sp + 1 := by rw [State.pop8_state, State.setSP_sp]
theorem State.pop16_sp (s : State) : s.pop16.2.sp = s.sp + 1 + 1 := by rw [State.pop16_eq, State.setSP_sp]

/-! ### A pull after a push -/

theorem State.pop8_push8 (s : State) (v : Byte) : (s.push8 v).pop8 = (v, { s with mem := (s.push8 v).mem }) := by
  rw [State.pop8_eq, State.pullOffset_push8, State.push8_mem, Memory.read_write_self, State.push8_eq,
    BitVec.sub_add_cancel]

/-- The two bytes of a word are pushed at two addresses. -/
theorem State.stackAddr_pushOffset_ne (s : State) : stackAddr s.pushOffset ≠ stackAddr (s.pushOffset - 1) := by
  intro h
  have hsame : s.pushOffset = s.pushOffset - 1 := stackAddr_inj h
  bv_omega

theorem State.pullOffset_push16 (s : State) (w : Addr) : (s.push16 w).pullOffset = s.pushOffset - 1 := by
  rw [State.push16, State.pullOffset_push8, State.pushOffset_push8]

theorem State.pop16_push16 (s : State) (w : Addr) :
    (s.push16 w).pop16 = (w, { s with mem := (s.push16 w).mem }) := by
  have hsp : s.sp - 1 - 1 + 1 + 1 = s.sp := by rw [BitVec.sub_add_cancel, BitVec.sub_add_cancel]
  rw [State.pop16_eq, State.pullOffset_push16, BitVec.sub_add_cancel, State.push16_mem, Memory.read_write_self,
    Memory.read_write_of_ne _ _ s.stackAddr_pushOffset_ne, Memory.read_write_self, word_hiByte_loByte,
    State.push16_sp, hsp, State.push16_eq]
  rfl

/-- The memory that a push of two bytes leaves, the high byte at the first pushed address (R202). -/
theorem State.read_push16 (s : State) (w a : Addr) : (s.push16 w).mem.read a =
    if a = BitVec.ofNat 16 (pushedAt s 1) then lo w
    else if a = BitVec.ofNat 16 (pushedAt s 0) then hi w else s.mem.read a := by
  rw [State.push16_mem, Memory.read_write, Memory.read_write, stackAddr_pushOffset_sub_one, stackAddr_pushOffset,
    loByte_eq_lo, hiByte_eq_hi]

/-! ### The stack instructions -/

/-- An instruction whose rule is the push of one byte (R205, R207). -/
theorem pushes_of_push8 {s : State} {op v : Byte} {i : Instr} (hop : shapeOf op = some (.f1 i))
    (hexec : exec i s = .next (s.push8 v)) : Pushes s [op] i v := by
  refine runs_f1 hop ⟨_, hexec, ?_, ?_, fun a => ?_⟩
  · rw [State.push8_eq]
  · rw [State.push8_sp, byte_pred_toNat]
  · rw [State.push8_mem, Memory.read_write, stackAddr_pushOffset]

/-- PHP's mask sets bits 4 and 5 and keeps the others (R207). -/
theorem or_0x30_getLsbD (p : Byte) {k : Nat} (hk : k < 8) :
    (p ||| 0x30).getLsbD k = if k = bitB ∨ k = bitU then true else p.getLsbD k := by
  have hmask : (0x30 : Byte).getLsbD k = decide (k = bitB ∨ k = bitU) := by
    interval_cases k <;> rfl
  rw [BitVec.getLsbD_or, hmask]
  by_cases h : k = bitB ∨ k = bitU
  · rw [if_pos h, decide_eq_true h, Bool.or_true]
  · rw [if_neg h, decide_eq_false h, Bool.or_false]

theorem callSubroutine_sp (w : Addr) (s : State) : (callSubroutine w s).sp = s.sp - 1 - 1 := s.push16_sp _

theorem returnFromInterrupt_sp (s : State) : (returnFromInterrupt s).sp = s.sp + 1 + 1 + 1 := by
  rw [returnFromInterrupt, State.setPC_sp, State.pop16_sp, State.loadStatus_sp, State.pop8_sp]

theorem returnFromInterrupt_mem (s : State) : (returnFromInterrupt s).mem = s.mem := by
  rw [returnFromInterrupt, State.setPC_mem, State.pop16_mem, State.loadStatus_mem, State.pop8_mem]

/-- PLA is a load into A of the pulled byte, after the pull has moved SP (R206). -/
theorem pullA_eq (s : State) :
    pullA s = ((s.setSP (s.sp + 1)).set .a (rd s (pulledAt s 0))).setZN (rd s (pulledAt s 0)) := by
  rw [pullA, State.pop8_value_eq_rd, State.pop8_state]

end Sys2Proof.Machine
end

section
/-! The statements about the stack (44_stack.md). -/

namespace Sys2Proof.Proofs

open Sys2Proof Sys2Proof.Machine Sys2Proof.Claims

/-- Settles O20: a byte is read where it was written, and a word's two bytes stand at different addresses. -/
theorem pullUndoesPush : Obligations.PullUndoesPush := by
  refine fun s => ⟨fun v => ?_, fun w => ?_⟩
  · rw [State.pop8_push8]
    exact ⟨rfl, rfl⟩
  · rw [State.pop16_push16]
    exact ⟨rfl, rfl, s.read_push16 w⟩

/-- Settles O21: a push or a pull moves SP alike in both orders, and a pull leaves memory; every other rule evaluates
without reading the order, to states with the same SP and memory. -/
theorem stackOrderKeepsTheStackPointer : Obligations.StackOrderKeepsTheStackPointer := by
  intro i s order
  cases i with
  | pha | php =>
    exact ⟨_, _, rfl, rfl, by rw [State.push8_sp, State.push8_sp], absurd (List.mem_of_elem_eq_true rfl)⟩
  | jsr w =>
    exact ⟨_, _, rfl, rfl, by rw [callSubroutine_sp, callSubroutine_sp], absurd (List.mem_of_elem_eq_true rfl)⟩
  | pla | plp =>
    exact ⟨_, _, rfl, rfl, (State.pop8_sp _).trans s.pop8_sp.symm, fun _ => (State.pop8_mem _).trans s.pop8_mem.symm⟩
  | rts =>
    exact ⟨_, _, rfl, rfl, (State.pop16_sp _).trans s.pop16_sp.symm,
      fun _ => (State.pop16_mem _).trans s.pop16_mem.symm⟩
  | rti =>
    exact ⟨_, _, rfl, rfl, by rw [returnFromInterrupt_sp, returnFromInterrupt_sp],
      fun _ => by rw [returnFromInterrupt_mem, returnFromInterrupt_mem]⟩
  | _ => exact ⟨_, _, rfl, rfl, rfl, fun _ => rfl⟩

/-- Settles O16: PHA's rule is the push of A. -/
theorem phaPushesA : Obligations.PhaPushesA :=
  fun _ => pushes_of_push8 rfl rfl

/-- Settles O17: SetZN after the pull and the write of A. -/
theorem plaPullsA : Obligations.PlaPullsA := fun s =>
  runs_f1 rfl ⟨_, congrArg Host.Outcome.next (pullA_eq s), rfl, byte_succ_toNat s.sp, setZN_zn _ _, setZN_kept _ rfl⟩

/-- Settles O18: the byte is P with PHP's mask. -/
theorem phpPushesStatusWithBreak : Obligations.PhpPushesStatusWithBreak :=
  fun s => ⟨s.p ||| 0x30, pushes_of_push8 rfl rfl, fun _ => or_0x30_getLsbD s.p⟩

/-- Settles O19: the status load of `State.loadStatus_bit`, from the pulled byte. -/
theorem plpRestoresStatus : Obligations.PlpRestoresStatus := by
  refine fun s => runs_f1 rfl ⟨_, rfl, ?_⟩
  rw [State.pop8_value_eq_rd, State.pop8_state]
  exact ⟨rfl, byte_succ_toNat s.sp, State.loadStatus_bit _ _⟩

end Sys2Proof.Proofs
end

section
/-! SUPPORT. What a jump, a call, a return and a branch do (45_control_flow.md R220 to R225), in both stack orders and
with their targets as numbers, and the steps of a call and of its return (40_fetch_decode.md R105 to R108). -/

namespace Sys2Proof.Machine

open Sys2Proof Sys2Proof.Claims

/-! ### Jumps and branches -/

theorem addr_succ_toNat (a : Addr) : (a + 1).toNat = (a.toNat + 1) % 65536 := BitVec.toNat_add a 1

/-- The page of one address and the place in the page of another (R221). -/
theorem and_0xFF00_or_and_0x00FF (v w : Addr) : (v &&& 0xFF00) ||| (w &&& 0x00FF) = word (hiByte v) (loByte w) := by
  refine BitVec.eq_of_getLsbD_eq fun k hk => ?_
  rw [word, BitVec.getLsbD_append]
  interval_cases k <;> simp [hiByte, loByte]

/-- Both bytes of an indirect jump's target stand in the vector's page (R221). -/
theorem readVector_toNat (s : State) (w : Addr) : (readVector s.mem w).toNat =
    (rd s (w.toNat / 256 * 256 + (w.toNat + 1) % 256)).toNat * 256 + (rd s w.toNat).toNat := by
  have hhigh : (word (hiByte w) (loByte (w + 1))).toNat = w.toNat / 256 * 256 + (w.toNat + 1) % 256 := by
    rw [word_toNat, hiByte_toNat, loByte_toNat, addr_succ_toNat]
    omega
  rw [readVector, word_toNat, and_0xFF00_or_and_0x00FF, eq_ofNat_of_toNat_eq hhigh, rd, rd,
    ← eq_ofNat_of_toNat_eq rfl]

/-- A branch's target by its number, modulo 65536, as an address (R225). -/
theorem succ_add_sext16_eq_ofInt (a : Addr) (o : Byte) :
    a + 1 + sext16 o = BitVec.ofInt 16 (a.toNat + 1 + o.toInt) := by
  rw [BitVec.ofInt_add, BitVec.ofInt_add, BitVec.ofInt_natCast, ← eq_ofNat_of_toNat_eq rfl]
  rfl

/-- An instruction whose rule is the branch on a condition (R225). -/
theorem branches_of_branch {s : State} {op : Byte} {make : Byte → Instr} {taken : Bool} {cond : Prop}
    (hop : shapeOf op = some (.f2 make)) (hexec : ∀ o, exec (make o) s = .next (branch taken o s))
    (hcond : cond ↔ taken = true) : Branches s op make cond := by
  refine fun o => runs_f2 hop o ⟨_, hexec o, rfl, fun hc => ?_, fun hc => ?_⟩
  · rw [branch, State.setPC_pc, if_pos (hcond.mp hc), succ_add_sext16_eq_ofInt]
  · rw [branch, State.setPC_pc, if_neg (mt hcond.mpr hc), addr_succ_toNat]

section

variable {s : State} {op : Byte} {make : Byte → Instr}

theorem branches_of_flag_set (f : Flag) (hop : shapeOf op = some (.f2 make))
    (hexec : ∀ o, exec (make o) s = .next (branch (s.flag f) o s)) : Branches s op make (bit s f.bit = true) :=
  branches_of_branch hop hexec Iff.rfl

theorem branches_of_flag_clear (f : Flag) (hop : shapeOf op = some (.f2 make))
    (hexec : ∀ o, exec (make o) s = .next (branch (!s.flag f) o s)) : Branches s op make (bit s f.bit = false) :=
  branches_of_branch hop hexec (Bool.not_eq_true' _).symm.to_iff

end

/-! ### The call -/

/-- What stands at `a` after a push of the word `w` from `s`, where the byte `b` stood (R202). -/
def pushedOver (s : State) (w a : Addr) (b : Byte) : Byte :=
  if a = BitVec.ofNat 16 (pushedAt s 1) then lo w else if a = BitVec.ofNat 16 (pushedAt s 0) then hi w else b

theorem State.read_push16_eq_pushedOver (s : State) (w a : Addr) :
    (s.push16 w).mem.read a = pushedOver s w a (s.mem.read a) := s.read_push16 w a

theorem pushedOver_of_ne {s : State} {a : Addr} (w : Addr) (b : Byte)
    (h : ∀ k, k < 2 → BitVec.ofNat 16 (pushedAt s k) ≠ a) : pushedOver s w a b = b := by
  rw [pushedOver, if_neg (h 1 (by decide)).symm, if_neg (h 0 (by decide)).symm]

/-- JSR is a push of `pcb + 1` and a write of PC (R222). -/
theorem callSubroutine_eq (w : Addr) (s : State) :
    callSubroutine w s = (s.push16 (s.pc + 1)).setPC (callSubroutine w s).pc := rfl

/-- The target is read after the push, so that a pushed byte that lands on the operand is part of it (D24). -/
theorem callSubroutine_pc (w : Addr) (s : State) : (callSubroutine w s).pc =
    word (pushedOver s (s.pc + 1) (s.pc + 1) (hi w)) (pushedOver s (s.pc + 1) s.pc (lo w)) := by
  have hne : s.pc ≠ s.pc + 1 := by bv_omega
  have hhigh : (s.mem.write16 s.pc w).read (s.pc + 1) = hi w := by
    rw [Memory.read_write16, if_pos rfl, hiByte_eq_hi]
  have hlow : (s.mem.write16 s.pc w).read s.pc = lo w := by
    rw [Memory.read_write16, if_neg hne, if_pos rfl, loByte_eq_lo]
  rw [callSubroutine, State.setPC_pc, Memory.read16, State.read_push16_eq_pushedOver,
    State.read_push16_eq_pushedOver, State.setMem_mem, hhigh, hlow]
  rfl

/-- A call whose pushes miss its operand goes to the operand (R222). -/
theorem callSubroutine_pc_of_ne {w : Addr} {s : State}
    (h : ∀ k, k < 2 → BitVec.ofNat 16 (pushedAt s k) ≠ s.pc ∧ BitVec.ofNat 16 (pushedAt s k) ≠ s.pc + 1) :
    (callSubroutine w s).pc = w := by
  rw [callSubroutine_pc, pushedOver_of_ne _ _ fun k hk => (h k hk).2, pushedOver_of_ne _ _ fun k hk => (h k hk).1,
    ← hiByte_eq_hi, ← loByte_eq_lo, word_hiByte_loByte]

/-! ### The returns -/

theorem State.pop16_state (s : State) : s.pop16.2 = s.setSP (s.sp + 1 + 1) := by rw [State.pop16_eq]

/-- A word pulled is the one the statements name (R203). -/
theorem State.pop16_value_toNat (s : State) : s.pop16.1.toNat = pulledWord s 0 := by
  have hlow := stackAddr_pullOffset_add s 0
  rw [BitVec.add_zero] at hlow
  rw [State.pop16_eq, word_toNat, pulledWord, rd, rd, ← hlow, ← stackAddr_pullOffset_add]
  rfl

/-- After a pull the bytes further on the stack are counted from one less (R201). -/
theorem pulledAt_setSP_succ (s : State) (k : Nat) : pulledAt (s.setSP (s.sp + 1)) k = pulledAt s (k + 1) := by
  rw [pulledAt, pulledAt, State.setSP_cfg, State.setSP_sp, byte_succ_toNat]
  cases s.cfg.stackOrder <;> dsimp only <;> omega

theorem pulledWord_setSP_succ (s : State) (k : Nat) : pulledWord (s.setSP (s.sp + 1)) k = pulledWord s (k + 1) := by
  rw [pulledWord, pulledAt_setSP_succ, pulledAt_setSP_succ]
  rfl

/-- RTI is PLP's status load after the first pull, then SP and PC of the word pulled next (R224). -/
theorem returnFromInterrupt_eq (s : State) : returnFromInterrupt s =
    ((s.loadStatus (rd s (pulledAt s 0))).setSP (s.sp + 1 + 1 + 1)).setPC (s.setSP (s.sp + 1)).pop16.1 := by
  rw [returnFromInterrupt, State.pop8_value_eq_rd, State.pop8_state]
  simp only [State.pop16_eq]
  rfl

/-- Pulling a word where another was pushed, with the two pushed bytes in place: SP is as before the push. -/
theorem pop16_of_pushed {s u : State} {w : Addr} (hcfg : u.cfg = s.cfg) (hsp : u.sp = (s.push16 w).sp)
    (hbytes : ∀ k, k < 2 → rd u (pushedAt s k) = rd (s.push16 w) (pushedAt s k)) :
    u.pop16 = (w, u.setSP s.sp) := by
  have hoffset : u.pullOffset = (s.push16 w).pullOffset := by
    rw [State.pullOffset, State.pullOffset, hcfg, hsp, State.push16, State.push8_cfg, State.push8_cfg]
  have hvalue : u.pop16.1 = (s.push16 w).pop16.1 := by
    have hhigh := hbytes 0 (by decide)
    have hlow := hbytes 1 (by decide)
    rw [rd, rd, ← stackAddr_pushOffset] at hhigh
    rw [rd, rd, ← stackAddr_pushOffset_sub_one] at hlow
    rw [State.pop16_eq, State.pop16_eq, hoffset, State.pullOffset_push16, BitVec.sub_add_cancel, hhigh, hlow]
  rw [State.pop16_push16] at hvalue
  have hstate : u.pop16.2 = u.setSP s.sp := by
    rw [State.pop16_state, hsp, State.push16_sp, BitVec.sub_add_cancel, BitVec.sub_add_cancel]
  exact Prod.ext hvalue hstate

/-! ### Whole steps -/

theorem decode_fetchBytes_of_f1 {s : State} {op : Byte} {i : Instr} (hop : shapeOf op = some (.f1 i))
    (hread : s.mem.read s.pc = op) : ∃ rest, decode s.fetchBytes = .ok (i, rest) := by
  rw [State.fetchBytes, hread]
  exact ⟨_, decode_f1 hop _⟩

/-- The step of a JSR that does not go to its own operand: no advance follows it (R105, R107). -/
theorem step_of_jsr {s : State} {w : Addr} (hr : s.run = .running) (hbytes : bytesAtPC s = [0x20, lo w, hi w])
    (hpc : (callSubroutine w s.fetched).pc ≠ s.pc + 1) : step s = .next (callSubroutine w s.fetched) := by
  have hd : decode s.fetchBytes = .ok (.jsr w, []) := by
    change decode (bytesAtPC s) = _
    rw [hbytes, ← loByte_eq_lo, ← hiByte_eq_hi]
    exact decode_encode (.jsr w) []
  rw [step_of_decode hr hd rfl, advance_of_controlTransfer rfl (.inr hpc)]

/-- RTS is one byte long, so that either advance leaves it where it is (R106, R107). -/
theorem advance_rts (pcb : Addr) (t : State) : advance .rts pcb t = t := by
  by_cases hpc : t.pc = pcb
  · have hnext : nextAddr .rts pcb = t.pc := (BitVec.add_zero pcb).trans hpc.symm
    have hsame : t.setPC (nextAddr .rts pcb) = t := by rw [hnext]; rfl
    simp only [advance_eq_ite, hsame, ite_self]
  · exact advance_of_controlTransfer rfl (.inr hpc)

theorem step_of_rts {s : State} (hr : s.run = .running) (hop : s.mem.read s.pc = 0x60) :
    step s = .next (s.fetched.pop16.2.setPC (s.fetched.pop16.1 + 1)) := by
  obtain ⟨rest, hd⟩ := decode_fetchBytes_of_f1 (i := .rts) rfl hop
  rw [step_of_decode hr hd rfl, advance_rts]

end Sys2Proof.Machine
end

section
/-! The statements about control flow (45_control_flow.md). -/

namespace Sys2Proof.Proofs

open Sys2Proof Sys2Proof.Machine Sys2Proof.Claims

/-- Settles O22: both write PC alone, the indirect form the word read at its vector. -/
theorem jmpLoadsPC : Obligations.JmpLoadsPC := fun s w =>
  ⟨runs_f3 rfl w ⟨_, rfl, rfl⟩, runs_f3 rfl w ⟨_, rfl, rfl, readVector_toNat s w⟩⟩

/-- Settles O23: a push of the return address, and the target read where the push may have landed. -/
theorem jsrPushesThenJumps : Obligations.JsrPushesThenJumps := by
  refine fun s w => runs_f3 rfl w ⟨_, rfl, ?_, ?_, s.read_push16 (s.pc + 1), ?_⟩
  · rw [callSubroutine_eq, State.push16_eq]
    rfl
  · rw [callSubroutine_sp, byte_pred_toNat, byte_pred_toNat]
    omega
  · rw [callSubroutine_pc, word_toNat]
    rfl

/-- Settles O24: the pulled word plus 1. -/
theorem rtsReturnsPastTheCall : Obligations.RtsReturnsPastTheCall := by
  refine fun s => runs_f1 rfl ⟨_, rfl, ?_⟩
  rw [State.pop16_state]
  refine ⟨rfl, ?_, ?_⟩
  · rw [State.setPC_sp, State.setSP_sp, byte_succ_toNat, byte_succ_toNat]
    omega
  · rw [State.setPC_pc, addr_succ_toNat, State.pop16_value_toNat]

/-- Settles O25: PLP's status load, and the word pulled after the status byte. -/
theorem rtiRestoresStatusAndPC : Obligations.RtiRestoresStatusAndPC := by
  refine fun s => runs_f1 rfl ⟨_, congrArg Host.Outcome.next (returnFromInterrupt_eq s), rfl, ?_,
    State.loadStatus_bit s _, ?_⟩
  · rw [State.setPC_sp, State.setSP_sp, byte_succ_toNat, byte_succ_toNat, byte_succ_toNat]
    omega
  · rw [State.setPC_pc, State.pop16_value_toNat, pulledWord_setSP_succ]

/-- Settles O26: one rule, on a flag or on its negation. -/
theorem branchesAddTheirOffset : Obligations.BranchesAddTheirOffset := fun _ =>
  ⟨branches_of_flag_clear .c rfl fun _ => rfl, branches_of_flag_set .c rfl fun _ => rfl,
    branches_of_flag_set .z rfl fun _ => rfl, branches_of_flag_clear .z rfl fun _ => rfl,
    branches_of_flag_set .n rfl fun _ => rfl, branches_of_flag_clear .n rfl fun _ => rfl,
    branches_of_flag_clear .v rfl fun _ => rfl, branches_of_flag_set .v rfl fun _ => rfl⟩

/-- Settles O28: the RTS pulls the word the JSR pushed, the address of the JSR's last byte. -/
theorem returnFollowsTheCall : Obligations.ReturnFollowsTheCall := by
  intro s w hr hbytes hw hmiss
  have hsecond : s.pc + 2 = s.fetched.pc + 1 := (BitVec.add_assoc s.pc 1 1).symm
  have hreturn : s.fetched.pc + 1 + 1 = s.pc + 3 := by rw [← hsecond, BitVec.add_assoc]; rfl
  rw [hsecond] at hmiss
  have hpc : (callSubroutine w s.fetched).pc = w := callSubroutine_pc_of_ne (s := s.fetched) hmiss
  have hcall := step_of_jsr hr hbytes (hpc.trans_ne hw)
  refine ⟨_, hcall, hpc, fun u hru hcfg hsp hop hpushed => ⟨_, step_of_rts hru hop, ?_⟩⟩
  rw [step_cfg hcall] at hcfg
  have hpop : u.fetched.pop16 = (s.fetched.pc + 1, u.fetched.setSP s.sp) :=
    pop16_of_pushed (s := s.fetched) hcfg hsp hpushed
  rw [hpop, hreturn]
  rfl

/-- Settles O27: the rule writes Run, and no advance follows a halt. -/
theorem brkHalts : Obligations.BrkHalts := by
  refine ⟨fun s => runs_f1 rfl ⟨_, rfl, rfl⟩, fun s hr hop => ?_⟩
  obtain ⟨rest, hd⟩ := decode_fetchBytes_of_f1 (i := .brk) rfl hop
  rw [step_of_decode hr hd rfl, advance_of_halted rfl]
  rfl

end Sys2Proof.Proofs
end

section
/-! SUPPORT. What a flag write changes (10_state.md R10, R27), and the advance of an instruction that is one byte long
(40_fetch_decode.md R106, R107). -/

namespace Sys2Proof.Machine

open Sys2Proof Sys2Proof.Claims

/-- An instruction whose rule is one flag write (R250 to R256). -/
theorem writesFlag_of_setFlag {s : State} {op : Byte} {i : Instr} {f : Flag} {b : Bool}
    (hop : shapeOf op = some (.f1 i)) (hexec : exec i s = .next (s.setFlag f b)) : WritesFlag s op i f.bit b := by
  have hwritten : bit (s.setFlag f b) f.bit = b := (s.setFlag_bit f b f.bit f.bit_lt).trans (if_pos rfl)
  have hkept : Kept s (s.setFlag f b) [f.bit] := (Kept.of_p_eq rfl).setFlag (List.mem_singleton_self _) b
  exact runs_f1 hop ⟨_, hexec, rfl, hwritten, hkept⟩

/-- The fetch has already left PC past an instruction of one byte, so that either advance leaves it where it is. -/
theorem advance_of_length_one {i : Instr} {t : State} (hlen : i.length = 1) : advance i t.pc t = t := by
  have hnext : nextAddr i t.pc = t.pc := by
    rw [nextAddr, hlen]
    exact BitVec.add_zero t.pc
  have hsame : t.setPC (nextAddr i t.pc) = t := by rw [hnext]; rfl
  simp only [advance_eq_ite, hsame, ite_self]

end Sys2Proof.Machine
end

section
/-! The statements about the flag instructions and NOP (46_flags_misc.md). -/

namespace Sys2Proof.Proofs

open Sys2Proof Sys2Proof.Machine Sys2Proof.Claims

/-- Settles O29: each rule is one flag write. -/
theorem flagInstructionsWriteOneBit : Obligations.FlagInstructionsWriteOneBit := fun _ =>
  ⟨writesFlag_of_setFlag (f := .c) rfl rfl, writesFlag_of_setFlag (f := .c) rfl rfl,
    writesFlag_of_setFlag (f := .i) rfl rfl, writesFlag_of_setFlag (f := .i) rfl rfl,
    writesFlag_of_setFlag (f := .d) rfl rfl, writesFlag_of_setFlag (f := .d) rfl rfl,
    writesFlag_of_setFlag (f := .v) rfl rfl⟩

/-- Settles O30: the rule writes nothing, and the fetch has moved PC past the one byte. -/
theorem nopOnlyAdvances : Obligations.NopOnlyAdvances := by
  refine ⟨fun s => runs_f1 rfl ⟨_, rfl, rfl⟩, fun s hr hop => ?_⟩
  obtain ⟨rest, hd⟩ := decode_fetchBytes_of_f1 (i := .nop) rfl hop
  have hadvance : advance .nop (s.pc + 1) s.fetched = s.fetched := advance_of_length_one (t := s.fetched) rfl
  rw [step_of_decode hr hd rfl, hadvance]
  rfl

end Sys2Proof.Proofs
end

section
/-! SUPPORT. The halt an instruction's rule can make (60_exceptions.md R272). -/

namespace Sys2Proof.Machine

open Sys2Proof

/-- The one halt a rule makes is BRK's, a normal end (R272): UnimplementedOpcode is the fetch's (R270), and no rule
reaches InvalidAddressingRequest (R271). -/
theorem isFault_eq_false_of_exec {i : Instr} {s u : State} {c : HaltCause} (hr : s.run = .running)
    (hu : exec i s = .next u) (hc : u.run = .halted c) : c.isFault = false := by
  obtain ⟨-, hrun | ⟨-, hbrk⟩, -⟩ := exec_frame hu
  · cases hc.symm.trans (hrun.trans hr)
  · cases hc.symm.trans hbrk
    rfl

end Sys2Proof.Machine
end

section
/-! The statement about faults (60_exceptions.md). -/

namespace Sys2Proof.Proofs

open Sys2Proof Sys2Proof.Machine

/-- Settles O49: only the halt on an unknown opcode is a fault, and it writes PC and Run. -/
theorem faultsArePrecise : Obligations.FaultsArePrecise := by
  intro s t c hr hstep hc hfault
  obtain ⟨-, ⟨-, rfl⟩ | ⟨i, rest, u, -, hu, rfl⟩⟩ := step_cases hstep
  · cases hc
    rfl
  · rw [advance_run] at hc
    have hnot : c.isFault = false := isFault_eq_false_of_exec (s := s.fetched) hr hu hc
    exact absurd hfault (Bool.eq_false_iff.mp hnot)

end Sys2Proof.Proofs
end

section
/-! SUPPORT. What the host's `load` leaves in memory (70_reset_and_hazards.md R291), with addresses as numbers. -/

namespace Sys2Proof.Machine

open Sys2Proof

/-- `Memory.read_write` with the addresses known by their numbers. -/
theorem Memory.read_write_ofNat (m : Memory) {n k : Nat} (v : Byte) (hn : n < 65536) (hk : k < 65536) :
    (m.write (BitVec.ofNat 16 n) v).read (BitVec.ofNat 16 k) =
      if k = n then v else m.read (BitVec.ofNat 16 k) := by
  have hiff : (BitVec.ofNat 16 k = BitVec.ofNat 16 n) ↔ k = n := by
    rw [← BitVec.toNat_inj, BitVec.toNat_ofNat, BitVec.toNat_ofNat, Nat.mod_eq_of_lt hk, Nat.mod_eq_of_lt hn]
  exact (m.read_write _ _ v).trans (if_congr hiff rfl rfl)

/-- What a read gives after bytes written from address `n` on, where they do not wrap. -/
theorem Memory.read_writeBytes (bytes : List Byte) {n k : Nat} (m : Memory) (hfit : n + bytes.length ≤ 65536)
    (hk : k < 65536) : (m.writeBytes (BitVec.ofNat 16 n) bytes).read (BitVec.ofNat 16 k) =
      if n ≤ k ∧ k < n + bytes.length then bytes.getD (k - n) 0 else m.read (BitVec.ofNat 16 k) := by
  induction bytes generalizing n m with
  | nil => exact (if_neg fun h => h.2.not_ge h.1).symm
  | cons b bs ih =>
    rw [List.length_cons] at hfit ⊢
    have hsucc : BitVec.ofNat 16 n + 1 = BitVec.ofNat 16 (n + 1) := (BitVec.ofNat_add n 1).symm
    rw [Memory.writeBytes, hsucc, ih _ (by omega), Memory.read_write_ofNat m b (by omega) hk]
    rcases lt_trichotomy k n with hbefore | rfl | hafter
    · rw [if_neg (by omega), if_neg (by omega), if_neg (by omega)]
    · rw [if_neg (by omega), if_pos rfl, if_pos (by omega), Nat.sub_self, List.getD_cons_zero]
    · have hindex : k - n = k - (n + 1) + 1 := by omega
      rw [if_neg hafter.ne', hindex, List.getD_cons_succ]
      exact if_congr (by omega) rfl rfl

/-- `load` within its precondition, the vector's word written as its two bytes (R291). -/
theorem hostLoad_of_fits {bytes : List Byte} (s : State) (h : bytes.length ≤ 0x7FFF) : hostLoad bytes s =
    .next (s.setMem (((s.mem.writeBytes (BitVec.ofNat 16 0x8000) bytes).write (BitVec.ofNat 16 0xFFFC) 0x00).write
      (BitVec.ofNat 16 0xFFFD) 0x80)) :=
  if_pos (decide_eq_true h)

/-- `load` beyond its precondition (R291, D21). -/
theorem hostLoad_of_too_long {bytes : List Byte} (s : State) (h : 0x7FFF < bytes.length) :
    hostLoad bytes s = .refused (.imageTooLong bytes.length) :=
  if_neg fun hfits => h.not_ge (of_decide_eq_true hfits)

end Sys2Proof.Machine
end

section
/-! The statements about the host's operations peek, poke and load (70_reset_and_hazards.md). -/

namespace Sys2Proof.Proofs

open Sys2Proof Sys2Proof.Machine Sys2Proof.Claims

/-- Settles O31: poke is one byte write, and `Memory.read_write` says what a read gives after it. -/
theorem pokeThenPeek : Obligations.PokeThenPeek := fun s a b v =>
  ⟨s.mem.read_write a b v, rfl, rfl⟩

/-- Settles O55: the two bytes of the vector are written last, so a read meets them before the image. -/
theorem loadPlacesImageAndVector : Obligations.LoadPlacesImageAndVector := by
  refine fun bytes s => ⟨fun hfits => ⟨_, hostLoad_of_fits s hfits, rfl, fun n hn => ?_⟩, hostLoad_of_too_long s⟩
  have hend : 0x8000 + bytes.length ≤ 65536 := by omega
  rw [rd, State.setMem_mem, Memory.read_write_ofNat _ _ (by decide) hn, Memory.read_write_ofNat _ _ (by decide) hn,
    Memory.read_writeBytes bytes s.mem hend hn]
  have hapart : n = 0xFFFD → n ≠ 0xFFFC := by omega
  exact ite_ite_comm _ _ _ _ hapart

end Sys2Proof.Proofs
end
